-- ==== Sys2Proof/Word.lean ====
section
/-! DEFINITION. The word types of the SPI master chunk sequencer: 8-bit payload bytes and 32-bit
registers, lengths and counters (R10, R11, R63). -/

namespace Sys2Proof

/-- One payload byte. -/
abbrev Byte := BitVec 8

/-- A 32-bit register, length, counter or bus value (R10, R63). -/
abbrev Word := BitVec 32

end Sys2Proof
end

