-- ==== Sys2Proof/Config.lean ====
section
/-! DEFINITION. What an implementation fixes and what the spec leaves open: the capacity parameters
of R9, which a configuration holds at the source's values, the open parameters (register offsets,
masks, retry budget, chip-select level and pin, fill byte) with the constraints R9 and R64 put on
them, and the free values (the read oracle of R61, the slave's bytes, the more-buffer length
encoding of R39). -/

namespace Sys2Proof

/-- Direction of a kick, the `dir` argument of `MBLEN_ENC` (R39). -/
inductive Dir where
  | tx
  | rx
  | fd
deriving DecidableEq, Repr

/-- The controller registers the block reaches (R35). -/
inductive Reg where
  | ctrl
  | opcode
  | data (j : Fin 8)
  | mblen
  | status
deriving DecidableEq, Repr

namespace Config

/-! ### Capacity parameters (R9; 92_eei_decisions.md D52) -/

/-- The capacity parameters of R9. Word types and the data-slot bank have the source's sizes in their
types as well (notes/assumptions/22.md). -/
structure Capacities where
  /-- `OPCODE_MAX`: bytes the opcode field holds. -/
  opcodeMax : Nat
  /-- `NUM_SLOTS`: 32-bit data slots in the controller. -/
  numSlots : Nat
  /-- `SLOT_BYTES`: bytes per data slot. -/
  slotBytes : Nat
  /-- `HD_SEND_STRIDE`: source bytes consumed per full half-duplex send chunk. -/
  hdSendStride : Nat
  /-- `HD_SEND_DATA`: data-phase bytes of a full half-duplex send chunk (90_conflicts.md C1). -/
  hdSendData : Nat
  /-- `HD_RX_CHUNK`: receive bytes per full half-duplex receive chunk. -/
  hdRxChunk : Nat
  /-- `FD_CHUNK`: send bytes and receive bytes per full-duplex iteration. -/
  fdChunk : Nat
  /-- `FD_SEND_SLOTS`: send slots used in full duplex. -/
  fdSendSlots : Nat
  /-- `FD_RX_BASE`: slot index of the first full-duplex receive slot. -/
  fdRxBase : Nat
  /-- `LEN_WIDTH`: width of every length and counter. -/
  lenWidth : Nat
deriving DecidableEq, Repr, Inhabited

/-- The source's values, which R9 makes the values for this hardware. -/
def Capacities.source : Capacities where
  opcodeMax := 4
  numSlots := 8
  slotBytes := 4
  hdSendStride := 28
  hdSendData := 24
  hdRxChunk := 32
  fdChunk := 16
  fdSendSlots := 4
  fdRxBase := 4
  lenWidth := 32

/-- The open parameters of R9. The spec gives a register offset and the pin identifier no width; the
model takes 32 bits for both (notes/assumptions/27.md). -/
structure OpenParams where
  regCtrl : Word
  regOpcode : Word
  regData0 : Word
  regMblen : Word
  regStatus : Word
  mbEn : Word
  duplexEn : Word
  start : Word
  busyMask : Word
  errMask : Word
  pollBudget : Nat
  csAssertLevel : Bool
  csPin : Word
  rxFill : Byte
deriving DecidableEq, Repr, Inhabited

/-- The parameters of R9, before their constraints are imposed. -/
structure Params extends Capacities, OpenParams where
deriving DecidableEq, Repr, Inhabited

/-- Offset of a controller register; `REG_DATA(j) = REG_DATA0 + 4·j` (R35), a sum modulo `2^32`
(notes/assumptions/27.md). -/
def Params.offset (p : Params) : Reg → Word
  | .ctrl => p.regCtrl
  | .opcode => p.regOpcode
  | .data j => p.regData0 + BitVec.ofNat 32 (4 * j.val)
  | .mblen => p.regMblen
  | .status => p.regStatus

/-- Every controller register the block reaches, once each. -/
def allRegs : List Reg :=
  [.ctrl, .opcode, .data 0, .data 1, .data 2, .data 3, .data 4, .data 5, .data 6, .data 7,
   .mblen, .status]

/-- The offsets are multiples of 4 and pairwise distinct (R64). -/
def Params.offsetsOk (p : Params) : Bool :=
  (allRegs.map p.offset).all (fun o => o &&& 3 == 0) && decide (allRegs.map p.offset).Nodup

/-- The mask constraints of R9 (92_eei_decisions.md D16). -/
def Params.masksOk (p : Params) : Bool :=
  p.mbEn != 0 && p.duplexEn != 0 && p.start != 0 &&
  p.mbEn &&& p.duplexEn == 0 && p.mbEn &&& p.start == 0 && p.duplexEn &&& p.start == 0 &&
  p.busyMask != 0 && p.busyMask &&& p.errMask == 0

/-- `POLL_BUDGET` is in 10000..99999 (R9, 92_eei_decisions.md D17). -/
def Params.budgetOk (p : Params) : Bool :=
  decide (10000 ≤ p.pollBudget) && decide (p.pollBudget ≤ 99999)

/-- The capacities are this hardware's (R9; notes/assumptions/22.md). -/
def Params.capacitiesOk (p : Params) : Bool := decide (p.toCapacities = Capacities.source)

/-- Every constraint the spec puts on the parameters (R9, R64). -/
def Params.valid (p : Params) : Bool :=
  p.capacitiesOk && p.offsetsOk && p.masksOk && p.budgetOk

end Config

/-- A configuration: parameters that meet the spec's constraints. A configuration that breaks
R64 is refused by this type: it cannot be built. -/
structure Config extends Config.Params where
  valid : toParams.valid = true
deriving DecidableEq, Repr

namespace Config

/-- Open parameters used only where the chip's raw ones break the constraints. -/
def fallbackParams : OpenParams where
  regCtrl := 0
  regOpcode := 4
  regData0 := 8
  regMblen := 40
  regStatus := 44
  mbEn := 1
  duplexEn := 2
  start := 4
  busyMask := 1
  errMask := 2
  pollBudget := 10000
  csAssertLevel := false
  csPin := 0
  rxFill := 0

/-- This hardware's capacities with the given open parameters (R9). -/
def OpenParams.withCapacities (o : OpenParams) : Params :=
  { toCapacities := Capacities.source, toOpenParams := o }

/-- A valid configuration with small numbers; tests use it. -/
def sample : Config := ⟨fallbackParams.withCapacities, by decide⟩

/-- FREE VALUE. The chip's own open parameters: nothing constrains them here. -/
opaque chipParams : OpenParams

/-- The chip's open parameters, where they meet the constraints of R9 and R64. -/
def chipOpen : OpenParams :=
  if chipParams.withCapacities.valid then chipParams else fallbackParams

/-- The chip's configuration: the free parameters where they meet the constraints of R9 and R64, so
that it ranges over exactly the valid configurations (notes/assumptions/1.md). -/
def chip : Config :=
  ⟨chipOpen.withCapacities, by
    unfold chipOpen
    split
    · assumption
    · decide⟩

/-- FREE VALUE. `MBLEN_ENC(cmd_bits, data_bits, dir)`, a total function nothing is assumed of
(R39, 92_eei_decisions.md D14). -/
opaque mblenEnc : Nat → Nat → Dir → Word

/-- FREE VALUE. The answer of the `n`-th register read whose answer the environment's list does not
give (R61: any 32-bit value). -/
opaque freeRead : Nat → Word

/-- FREE VALUE. The `n`-th bus byte of a slave whose byte list has run out. -/
opaque freeByte : Nat → Byte

end Config

end Sys2Proof
end

