-- ==== Sys2Proof/Syntax.lean ====
section
/-! DEFINITION. The syntax of the block's commands: the bit-order modes (R21), the command
selectors (R105), the request record the request port takes (R100), and `Instr`, one constructor
per row of spec/opcode_table.json with the operands of R105. -/

namespace Sys2Proof

/-- Bit-order mode (R21): 0 is MSB-first, 1 is LSB-first. -/
inductive BitOrder where
  | msbFirst
  | lsbFirst
deriving DecidableEq, Repr

/-- The command selectors of R105. -/
inductive Op where
  | configure
  | registerCallback
  | send
  | receive
  | sendRecv
  | sendRecvFd
  | sendAsync
  | sendRecvAsync
deriving DecidableEq, Repr

/-- The request record, taken whole by the request port (R100). -/
structure Record where
  cw : Word
  cmdb : Word
  txlen : Word
  tx : List Byte
  rxlen : Word
  cbh : Word
  udata : Word
  cfg : Word
deriving DecidableEq, Repr

/-- The commands, one constructor per row of the opcode table (R105). `cmd` are the CMDLEN command
bytes in sending order (R103); `tx` are the TXLEN bytes to send; `rxLen` is RXLEN. -/
inductive Instr where
  | configure (ord : BitOrder) (cfg : Word)
  | registerCallback (cbh udata : Word)
  | send (tx : List Byte)
  | receive (cmd : List Byte) (rxLen : Word)
  | sendRecv (cmd : List Byte) (rxLen : Word)
  | sendRecvFd (tx : List Byte) (rxLen : Word)
  | sendAsync (tx : List Byte)
  | sendRecvAsync (cmd : List Byte) (rxLen : Word)
deriving DecidableEq, Repr

/-- The selector of a command. -/
def Instr.op : Instr → Op
  | .configure _ _ => .configure
  | .registerCallback _ _ => .registerCallback
  | .send _ => .send
  | .receive _ _ => .receive
  | .sendRecv _ _ => .sendRecv
  | .sendRecvFd _ _ => .sendRecvFd
  | .sendAsync _ => .sendAsync
  | .sendRecvAsync _ _ => .sendRecvAsync

end Sys2Proof
end

