-- ==== Sys2Proof/WellFormed.lean ====
section
/-! DEFINITION. Which commands and records are well formed: a command carries at most four command
bytes (R106) and a send payload whose length is a 32-bit number (R10); a record carries exactly
TXLEN send bytes (R100). -/

namespace Sys2Proof

/-- The largest legal CMDLEN (R106). -/
@[simp] abbrev cmdLenMax : Nat := 4

/-- CMDLEN is 0..4 (R106). -/
def cmdWf (cmd : List Byte) : Bool := decide (cmd.length ≤ cmdLenMax)

/-- The number of send bytes is a value TXLEN can hold (R10). -/
def txWf (tx : List Byte) : Bool := decide (tx.length < 2 ^ 32)

/-- Well-formedness of a command's operands. -/
def Instr.wf : Instr → Bool
  | .configure _ _ => true
  | .registerCallback _ _ => true
  | .send tx => txWf tx
  | .receive cmd _ => cmdWf cmd
  | .sendRecv cmd _ => cmdWf cmd
  | .sendRecvFd tx _ => txWf tx
  | .sendAsync tx => txWf tx
  | .sendRecvAsync cmd _ => cmdWf cmd

/-- A record with `len(TX) ≠ TXLEN` is ill-formed (R100). -/
def Record.wf (r : Record) : Bool := decide (r.tx.length = r.txlen.toNat)

end Sys2Proof
end

