-- ==== Sys2Proof/Decode.lean ====
section
/-! DEFINITION. Decoding of a request record into a command, total and rejecting by name (R101 to
R107), and after it the encoder written from the same tables. -/

namespace Sys2Proof

/-- Why a record is no command. `illFormedRecord` is the model fault of R275; every other reason is
an illegal command word (R107). -/
inductive DecodeError where
  | illFormedRecord
  | reservedBits
  | reservedOp
  | badCmdLen
  | badOrd
deriving DecidableEq, Repr

/-- `CW[3:0]`, the OP field (R101). -/
def cwOp (cw : Word) : BitVec 4 := cw.extractLsb' 0 4
/-- `CW[6:4]`, the CMDLEN field (R101). -/
def cwCmdLen (cw : Word) : BitVec 3 := cw.extractLsb' 4 3
/-- `CW[7]`, the ORD field (R101). -/
def cwOrd (cw : Word) : BitVec 1 := cw.extractLsb' 7 1
/-- `CW[31:8]`, reserved, must be 0 (R101). -/
def cwReserved (cw : Word) : BitVec 24 := cw.extractLsb' 8 24

/-- The OP value of a selector (R105). -/
def Op.code : Op → BitVec 4
  | .configure => 0x1
  | .registerCallback => 0x2
  | .send => 0x3
  | .receive => 0x4
  | .sendRecv => 0x5
  | .sendRecvFd => 0x6
  | .sendAsync => 0x7
  | .sendRecvAsync => 0x8

/-- The selector of an OP value; the others are reserved (R105). -/
def opOfCode (c : BitVec 4) : Option Op :=
  if c = 0x1 then some .configure
  else if c = 0x2 then some .registerCallback
  else if c = 0x3 then some .send
  else if c = 0x4 then some .receive
  else if c = 0x5 then some .sendRecv
  else if c = 0x6 then some .sendRecvFd
  else if c = 0x7 then some .sendAsync
  else if c = 0x8 then some .sendRecvAsync
  else none

/-- The bit of a bit-order mode (R21). -/
def BitOrder.bit : BitOrder → BitVec 1
  | .msbFirst => 0
  | .lsbFirst => 1

/-- The mode of an ORD bit (R101). -/
def bitOrderOf (b : BitVec 1) : BitOrder := if b = 0 then .msbFirst else .lsbFirst

/-- Commands that carry command bytes; the others need CMDLEN = 0 (R106). -/
def Op.takesCmd : Op → Bool
  | .receive | .sendRecv | .sendRecvAsync => true
  | .configure | .registerCallback | .send | .sendRecvFd | .sendAsync => false

/-- Only CONFIGURE uses ORD; the others need ORD = 0 (R106). -/
def Op.takesOrd : Op → Bool
  | .configure => true
  | .registerCallback | .send | .receive | .sendRecv | .sendRecvFd | .sendAsync
  | .sendRecvAsync => false

/-- The first `n` command bytes of CMDB: `cmd[j] = CMDB[8j+7 : 8j]` (R103). -/
def cmdBytes : Nat → Word → List Byte
  | 0, _ => []
  | n + 1, w => w.extractLsb' 0 8 :: cmdBytes n (w >>> 8)

/-- The field checks of a command word (R106): the selector where it is legal, else the reason. -/
def decodeCw (cw : Word) : Except DecodeError Op :=
  if cwReserved cw ≠ 0 then .error .reservedBits
  else
    match opOfCode (cwOp cw) with
    | none => .error .reservedOp
    | some o =>
      if !o.takesOrd && cwOrd cw != 0 then .error .badOrd
      else if decide (cmdLenMax < (cwCmdLen cw).toNat) then .error .badCmdLen
      else if !o.takesCmd && cwCmdLen cw != 0 then .error .badCmdLen
      else .ok o

/-- The rows of the opcode table as R106 prints them: selector, match, mask. -/
def opcodeRows : List (Op × Word × Word) :=
  [(.configure, 0x00000001, 0xFFFFFF7F),
   (.registerCallback, 0x00000002, 0xFFFFFFFF),
   (.send, 0x00000003, 0xFFFFFFFF),
   (.receive, 0x00000004, 0xFFFFFF8F),
   (.sendRecv, 0x00000005, 0xFFFFFF8F),
   (.sendRecvFd, 0x00000006, 0xFFFFFFFF),
   (.sendAsync, 0x00000007, 0xFFFFFFFF),
   (.sendRecvAsync, 0x00000008, 0xFFFFFF8F)]

/-- The table's own reading of a command word: it matches a row, and CMDLEN is at most 4 (R106). -/
def matchesRow (cw : Word) (row : Op × Word × Word) : Bool :=
  cw &&& row.2.2 == row.2.1 && decide ((cwCmdLen cw).toNat ≤ cmdLenMax)

/-- The operands a selector takes from the record (R103 to R105); other fields are ignored. -/
def operandsOf (r : Record) : Op → Instr
  | .configure => .configure (bitOrderOf (cwOrd r.cw)) r.cfg
  | .registerCallback => .registerCallback r.cbh r.udata
  | .send => .send r.tx
  | .receive => .receive (cmdBytes (cwCmdLen r.cw).toNat r.cmdb) r.rxlen
  | .sendRecv => .sendRecv (cmdBytes (cwCmdLen r.cw).toNat r.cmdb) r.rxlen
  | .sendRecvFd => .sendRecvFd r.tx r.rxlen
  | .sendAsync => .sendAsync r.tx
  | .sendRecvAsync => .sendRecvAsync (cmdBytes (cwCmdLen r.cw).toNat r.cmdb) r.rxlen

/-- Decoding of a request record (R100 to R107). -/
def decode (r : Record) : Except DecodeError Instr :=
  if r.wf then
    match decodeCw r.cw with
    | .error e => .error e
    | .ok o => .ok (operandsOf r o)
  else .error .illFormedRecord

/-! ### The encoder -/

/-- A command word from its fields (R101). -/
def mkCw (o : Op) (cmdLen : BitVec 3) (ord : BitVec 1) : Word := 0#24 ++ ord ++ cmdLen ++ o.code

/-- `CMDB = Σ cmd[j] << 8j` (R109). -/
def packCmdb : List Byte → Word
  | [] => 0
  | b :: bs => b.setWidth 32 ||| (packCmdb bs <<< 8)

/-- A record with every field zero, the start of each encoding below. -/
def Record.zero : Record :=
  { cw := 0, cmdb := 0, txlen := 0, tx := [], rxlen := 0, cbh := 0, udata := 0, cfg := 0 }

/-- The record of a command with command bytes. -/
def encodeCmd (o : Op) (cmd : List Byte) (rxLen : Word) : Record :=
  { Record.zero with
    cw := mkCw o (BitVec.ofNat 3 cmd.length) 0
    cmdb := packCmdb cmd
    rxlen := rxLen }

/-- The record of a command with a send payload. -/
def encodeTx (o : Op) (tx : List Byte) (rxLen : Word) : Record :=
  { Record.zero with
    cw := mkCw o 0 0
    txlen := BitVec.ofNat 32 tx.length
    tx := tx
    rxlen := rxLen }

/-- The request record of a command (R106, R109); unused fields are 0. -/
def encode : Instr → Record
  | .configure ord cfg => { Record.zero with cw := mkCw .configure 0 ord.bit, cfg := cfg }
  | .registerCallback cbh udata =>
    { Record.zero with cw := mkCw .registerCallback 0 0, cbh := cbh, udata := udata }
  | .send tx => encodeTx .send tx 0
  | .receive cmd rxLen => encodeCmd .receive cmd rxLen
  | .sendRecv cmd rxLen => encodeCmd .sendRecv cmd rxLen
  | .sendRecvFd tx rxLen => encodeTx .sendRecvFd tx rxLen
  | .sendAsync tx => encodeTx .sendAsync tx 0
  | .sendRecvAsync cmd rxLen => encodeCmd .sendRecvAsync cmd rxLen

/-- The record whose command word is the low `nbits` bits of `w` (at most 32) and whose other
fields are zero. -/
def tableRecord (nbits w : Nat) : Record :=
  { Record.zero with cw := BitVec.ofNat 32 (w % 2 ^ nbits) }

/-- The command the decoder reads from a table word, none where it refuses. -/
def decodeTableWord (nbits w : Nat) : Option Instr :=
  match decode (tableRecord nbits w) with
  | .ok i => some i
  | .error _ => none

end Sys2Proof
end

