-- ==== Sys2Proof/Machine/State.lean ====
section
/-! DEFINITION. The state of the machine: the block's registers (10_state.md), its sequencer
position, its chip-select output, the trace it has emitted (R60), and, beside them, the plain data
through which the outside world reaches it (the input stream, the read answers, the reference
controller of R80 to R87 where one is attached). The state after reset is R300. -/

namespace Sys2Proof.Machine

/-- The status a response carries (R270). -/
inductive Status where
  | ok
  | invalidParameter
  | busy
  | hardwareTimeout
  | unclassifiedError
deriving DecidableEq, Repr

/-- The code a completion event carries (R272). -/
inductive EventCode where
  | finished
  | error
deriving DecidableEq, Repr

/-- One event of the trace (R60). A received-byte position the block never wrote is `none` (R14). An
`emit` carries the callback handle it goes to (R242, R262). -/
inductive Event where
  | write (r : Reg) (v : Word)
  | read (r : Reg) (v : Word)
  | setBits (r : Reg) (m : Word)
  | clearBits (r : Reg) (m : Word)
  | cs (level : Bool)
  | respond (st : Status) (rx : List (Option Byte))
  | emit (handle : Word) (code : EventCode) (udata : Word) (rx : List (Option Byte))
deriving DecidableEq, Repr

/-- The sequencer state (R29). -/
inductive Fsm where
  | idle
  | run
  | waitIrq
  | isr
deriving DecidableEq, Repr

/-- The logical chip-select state (R41). -/
inductive CsState where
  | asserted
  | deasserted
deriving DecidableEq, Repr

/-- The position of the procedure being executed (R30): its next event, with the procedure's local
variables where it has any. -/
inductive Pos where
  /-- No procedure is running. -/
  | none
  /-- The chip-select assertion after admission (R153). -/
  | csAssert
  /-- `program`: the write of the opcode register (R156). -/
  | wOpcode
  /-- `program`: the write of send slot `j` (R156). -/
  | wData (j : Fin 8)
  /-- `program`: the write of the more-buffer length (R156). -/
  | wMblen
  /-- `program`: the setting of the mode bits (R156). -/
  | sMode
  /-- `program`: the kick (R156). -/
  | sStart
  /-- `poll`: a status read (R161). -/
  | poll
  /-- `kick_poll`: the clearing of the mode bits; `p` is what `poll` returned, `none` for TIMEOUT
  (R164). -/
  | cMode (p : Option Word)
  /-- `readback`: the read of its `j`-th slot; `w` are the words read so far (R160). -/
  | readback (j : Nat) (w : List Word)
  /-- `finish_poll`, step 1 (R167). -/
  | finishCs
  /-- `finish_poll`, step 2 (R167). -/
  | finishRespond
  /-- `abort_poll(st)`, step 1 (R168). -/
  | abortCs (st : Status)
  /-- `abort_poll(st)`, step 2 (R168). -/
  | abortRespond (st : Status)
  /-- `start_async`: the acceptance response (R231). -/
  | acceptRespond
  /-- The interrupt procedure: the clearing of MB_EN (R240). -/
  | isrClear
  /-- The interrupt procedure: the status read (R240). -/
  | isrStatus
  /-- `finish_async`, step 1 (R242). -/
  | finishAsyncCs
  /-- `finish_async`, step 2 (R242). -/
  | finishAsyncEmit
  /-- `abort_async`, step 1 (R244). -/
  | abortAsyncCs
  /-- `abort_async`, step 2 (R244). -/
  | abortAsyncEmit
deriving DecidableEq, Repr

/-- The request context (R24). It keeps an ended request's values until the next admission
(notes/assumptions/31.md). -/
structure Context where
  reqOp : Op
  ord : BitOrder
  cmd : List Byte
  cmdLen : BitVec 3
  tx : List Byte
  txLen : Word
  rxLen : Word
  rxBuf : List (Option Byte)
  rxBase : Word
deriving DecidableEq, Repr

/-- A transfer the reference controller is clocking: what START found in its registers (R81 to
R86). `ord` is its bit-order field, which is assumed to agree with the request's (R69). -/
structure Kick where
  ord : BitOrder
  cmdBytes : Nat
  dataBytes : Nat
  dir : Dir
  opcode : Word
  slots : Vector Word 8
deriving DecidableEq, Repr

/-- The reference controller of R80 to R87: its register file (R35 to R40), what the last write of
MBLEN encoded, the transfer in progress, whether a completion interrupt may be raised, the bytes
the slave will drive on the bus, and the bits clocked out so far, first bit first (R82). -/
structure RefController where
  ctrl : Word
  opcode : Word
  data : Vector Word 8
  mblen : Word
  cmdBits : Nat
  dataBits : Nat
  dir : Dir
  kick : Option Kick
  irqReady : Bool
  slave : List Byte
  wire : List Bool
deriving DecidableEq, Repr

/-- What stands behind the register-bus port: a controller nothing is known of, whose every read is
an oracle's answer (R61), or the reference controller (R80). -/
inductive Controller where
  | oracle
  | reference (c : RefController)
deriving DecidableEq, Repr

/-- What the outside world does at one step. -/
inductive Input where
  /-- Nothing arrives: the block takes its own next step. -/
  | tick
  /-- The request port takes a request record (R100, R170). -/
  | command (r : Record)
  /-- The controller pulses the completion-interrupt input (R46, R276). -/
  | irqPulse
  /-- The reference controller's transfer ends (R81). -/
  | transferEnd
  /-- The block is reset (R300, R302). -/
  | reset
deriving DecidableEq, Repr

/-- Why the machine stops. Both are model faults, not hardware statuses (R275). -/
inductive Fault where
  /-- Raised by the engine where a codec call leaves its domain (R131, R133). Safe: the block's
  rules never reach such a call. -/
  | codecDomain
  /-- Raised by the request port for a record with `len(TX) ≠ TXLEN` (R100), and by a transfer
  command given more send bytes than TXLEN can count. Safe: the model stops. -/
  | illFormedRecord
deriving DecidableEq, Repr

/-- Why the machine gives an instruction no meaning. -/
inductive Refusal where
  /-- Raised by exec's arm of an instruction that has no meaning yet. Safe: the model stops. No arm
  raises it. -/
  | notModelled (mnemonic : String)
deriving DecidableEq, Repr

/-- The machine's state. From `config` on, the fields are the model's own (notes/assumptions). -/
structure State where
  /-- `busy` (R20). -/
  busy : Bool
  /-- `bit_order` (R21). -/
  bitOrder : BitOrder
  /-- `cfg_opaque` (R22). -/
  cfgOpaque : Word
  /-- `cb_valid` (R23). -/
  cbValid : Bool
  /-- `cb_handle` (R23). -/
  cbHandle : Word
  /-- `cb_udata` (R23). -/
  cbUdata : Word
  /-- The request context (R24). -/
  ctx : Context
  /-- `ci` (R25). -/
  ci : Word
  /-- `total_chunks` (R26). -/
  totalChunks : Word
  /-- `completed_count` (R27). -/
  completedCount : Word
  /-- `poll_cnt` (R28). -/
  pollCnt : Word
  /-- `fsm` (R29). -/
  fsm : Fsm
  /-- The procedure position (R30). -/
  pos : Pos
  /-- `irq_mask` (R32). -/
  irqMask : Bool
  /-- `irq_pending` (R46). -/
  irqPending : Bool
  /-- `cs_state` (R41). -/
  csState : CsState
  /-- The configuration parameters (R9); no step changes them. -/
  config : Config
  /-- What stands behind the register-bus port (R35, R80). -/
  controller : Controller
  /-- What the outside world does, one entry a step, first entry first; when it is used up nothing
  more arrives. -/
  inputs : List Input
  /-- The answers to the coming register reads, first answer first (R61). -/
  answers : List Word
  /-- How many free values have been drawn. -/
  freeCount : Nat
  /-- The trace emitted so far, first event first (R60). -/
  trace : List Event
deriving DecidableEq, Repr

/-- The three outcomes of a step of this machine. -/
abbrev Result := Host.Outcome State Fault Refusal

/-- The request context after reset: unspecified (R300), given zeros (notes/assumptions/2.md). -/
def Context.reset : Context where
  reqOp := .send
  ord := .msbFirst
  cmd := []
  cmdLen := 0
  tx := []
  txLen := 0
  rxLen := 0
  rxBuf := []
  rxBase := 0

/-- The state after reset (R300). -/
def State.reset : State where
  busy := false
  bitOrder := .msbFirst
  cfgOpaque := 0
  cbValid := false
  cbHandle := 0
  cbUdata := 0
  ctx := Context.reset
  ci := 0
  totalChunks := 0
  completedCount := 0
  pollCnt := 0
  fsm := .idle
  pos := .none
  irqMask := false
  irqPending := false
  csState := .deasserted
  config := Config.chip
  controller := .oracle
  inputs := []
  answers := []
  freeCount := 0
  trace := []

end Sys2Proof.Machine
end

