-- ==== Sys2Proof/Machine/Flags.lean ====
section
/-! DEFINITION. Every flag the machine computes: the numeric status and event codes (R270, R272),
the controller's status bits (R40, R163), which requests are async, the completion-interrupt latch
(R46) and the request state machine's labels (R31). -/

namespace Sys2Proof

/-- The async commands (R46, R219). -/
def Op.isAsync : Op → Bool
  | .sendAsync | .sendRecvAsync => true
  | .configure | .registerCallback | .send | .receive | .sendRecv | .sendRecvFd => false

/-- The commands that receive bytes; their responses and events carry `rx_buf` (R167, R242). -/
def Op.receives : Op → Bool
  | .receive | .sendRecv | .sendRecvFd | .sendRecvAsync => true
  | .configure | .registerCallback | .send | .sendAsync => false

end Sys2Proof

namespace Sys2Proof.Machine

/-- Numeric status codes (R270). -/
def Status.code : Status → Nat
  | .ok => 0
  | .invalidParameter => 1
  | .busy => 2
  | .hardwareTimeout => 3
  | .unclassifiedError => 4

/-- Numeric event codes (R272). -/
def EventCode.code : EventCode → Nat
  | .finished => 0
  | .error => 1

/-- `(v & BUSY_MASK) ≠ 0`: a kick is in progress (R40). -/
def statusBusy (c : Config) (v : Word) : Bool := v &&& c.busyMask != 0

/-- `(v & ERR_MASK) ≠ 0`: the hardware reported failure (R40). -/
def statusErr (c : Config) (v : Word) : Bool := v &&& c.errMask != 0

/-- The outcome of a polled kick from what `poll` returned, `none` for TIMEOUT (R163). -/
def classify (c : Config) : Option Word → Status
  | none => .hardwareTimeout
  | some v => if statusErr c v then .unclassifiedError else .ok

/-- An async request is in flight: `busy = 1` and `req_op` is async (R46). -/
def State.asyncInFlight (s : State) : Bool := s.busy && s.ctx.reqOp.isAsync

/-- A completion-interrupt pulse at the latch: kept while an async request is in flight, else
discarded (R46, R245). -/
def State.latchIrq (s : State) : State :=
  { s with irqPending := s.irqPending || s.asyncInFlight }

/-- The interrupt can be taken (R240). -/
def State.irqTakeable (s : State) : Bool :=
  decide (s.fsm = .waitIrq) && s.irqPending && !s.irqMask

/-- The labels of the source's request state machine (R31). -/
inductive Phase where
  | idle
  | sendingCommand
  | transferringData
  | done
deriving DecidableEq, Repr

/-- The positions of the end-of-request procedure of R167, where the label is Done (R31). -/
def Pos.isFinish : Pos → Bool
  | .finishCs | .finishRespond => true
  | .none | .csAssert | .wOpcode | .wData _ | .wMblen | .sMode | .sStart | .poll | .cMode _
  | .readback _ _ | .abortCs _ | .abortRespond _ | .acceptRespond | .isrClear | .isrStatus
  | .finishAsyncCs | .finishAsyncEmit | .abortAsyncCs | .abortAsyncEmit => false

/-- The label of a state (R31): derived, not a register. -/
def State.phase (s : State) : Phase :=
  if s.fsm = .idle then .idle
  else if s.pos.isFinish then .done
  else if s.ci = 0 then .sendingCommand
  else .transferringData

end Sys2Proof.Machine
end

