-- ==== Sys2Proof/Machine/Codec.lean ====
section
/-! DEFINITION. The Chunk Codec (40_codec.md): packing of byte sequences into 32-bit words and back
in the two bit-order modes, pure functions. A call outside its domain has no value (R131). -/

namespace Sys2Proof.Machine

/-- The quotient rounded up, `ceil(a/b)` of R11. -/
def ceilDiv (a b : Nat) : Nat := (a + b - 1) / b

/-- `buf[i..j)` (R11). -/
def slice {α : Type} (l : List α) (i j : Nat) : List α := (l.drop i).take (j - i)

/-- The MSB-first sum of R130: byte j of k lands at bit `8·(k−1−j)`. -/
def packMsb : List Byte → Word
  | [] => 0
  | b :: bs => (b.setWidth 32 <<< (8 * bs.length)) + packMsb bs

/-- The LSB-first sum of R130 from byte position `j` on: byte j lands at bit `8·j`. -/
def packLsbFrom : Nat → List Byte → Word
  | _, [] => 0
  | j, b :: bs => (b.setWidth 32 <<< (8 * j)) + packLsbFrom (j + 1) bs

/-- `pack_word` (R130); no value outside 1 to 4 bytes (R131). -/
def packWord (c : Config) (bytes : List Byte) (ord : BitOrder) : Option Word :=
  if 1 ≤ bytes.length ∧ bytes.length ≤ c.slotBytes then
    match ord with
    | .msbFirst => some (packMsb bytes)
    | .lsbFirst => some (packLsbFrom 0 bytes)
  else none

/-- Byte `j` of a word that holds `k` bytes (R132). -/
def wordByte (w : Word) (k j : Nat) : BitOrder → Byte
  | .msbFirst => w.extractLsb' (8 * (k - 1 - j)) 8
  | .lsbFirst => w.extractLsb' (8 * j) 8

/-- `unpack_word` (R132); no value for k outside 1 to 4. -/
def unpackWord (c : Config) (w : Word) (k : Nat) (ord : BitOrder) : Option (List Byte) :=
  if 1 ≤ k ∧ k ≤ c.slotBytes then some ((List.range k).map fun j => wordByte w k j ord)
  else none

/-- The first `m` groups of four bytes, each packed (the loop of R133). -/
def packGroups (c : Config) (ord : BitOrder) : Nat → List Byte → Option (List Word)
  | 0, _ => some []
  | m + 1, bytes =>
    match packWord c (bytes.take c.slotBytes) ord,
        packGroups c ord m (bytes.drop c.slotBytes) with
    | some w, some ws => some (w :: ws)
    | _, _ => none

/-- `pack_slots` (R133); no value beyond 32 bytes. -/
def packSlots (c : Config) (bytes : List Byte) (ord : BitOrder) : Option (List Word) :=
  if bytes.length ≤ c.numSlots * c.slotBytes then
    packGroups c ord (ceilDiv bytes.length c.slotBytes) bytes
  else none

/-- `stage` (R134): the packed words, then zero words up to `m`; no value where they exceed `m`. -/
def stage (c : Config) (bytes : List Byte) (ord : BitOrder) (m : Nat) : Option (List Word) :=
  match packSlots c bytes ord with
  | some ws => if ws.length ≤ m then some (ws ++ List.replicate (m - ws.length) 0) else none
  | none => none

/-- The loop of R135: `n` bytes from consecutive words; no value where the words run out. -/
def unpackGroups (c : Config) (ord : BitOrder) : List Word → Nat → Option (List Byte)
  | _, 0 => some []
  | [], _ + 1 => none
  | w :: ws, n + 1 =>
    match unpackWord c w (min c.slotBytes (n + 1)) ord,
        unpackGroups c ord ws (n + 1 - c.slotBytes) with
    | some bs, some rest => some (bs ++ rest)
    | _, _ => none

/-- `unpack_slots` (R135); no value beyond 32 bytes or where the words run out. -/
def unpackSlots (c : Config) (words : List Word) (n : Nat) (ord : BitOrder) : Option (List Byte) :=
  if n ≤ c.numSlots * c.slotBytes then unpackGroups c ord words n else none

end Sys2Proof.Machine
end

