-- ==== Sys2Proof/Machine/Plans.lean ====
section
/-! DEFINITION. The chunk descriptor (R154) and the families' chunk plans: half-duplex send (R180),
half-duplex receive (R184) and full duplex (R210, R212). -/

namespace Sys2Proof.Machine

/-- The chunk descriptor (R154). `txd` is empty where a chunk stages no bytes. -/
structure Chunk where
  op : List Byte
  txd : List Byte
  stageM : Nat
  cmdBits : Nat
  dataBits : Nat
  dir : Dir
  rxN : Nat
  rxSlot0 : Nat
  rxDst : Nat
  ctrlMask : Word
deriving DecidableEq, Repr

/-! ### Half-duplex send -/

/-- `total_chunks` of `hd_send_plan(n)` (R180). -/
def hdSendCount (c : Config) (n : Nat) : Nat :=
  n / c.hdSendStride + (if 0 < n % c.hdSendStride then 1 else 0)

/-- A half-duplex send chunk from its opcode and data bytes (the last line of R180's plan). -/
def hdSendKick (c : Config) (op txd : List Byte) (cmdBits dataBits : Nat) : Chunk where
  op := op
  txd := txd
  stageM := c.numSlots
  cmdBits := cmdBits
  dataBits := dataBits
  dir := .tx
  rxN := 0
  rxSlot0 := 0
  rxDst := 0
  ctrlMask := c.mbEn

/-- Chunk `i` of `hd_send_plan(n)` for the bytes `tx` (R180). -/
def hdSendChunk (c : Config) (tx : List Byte) (n i : Nat) : Chunk :=
  if i < n / c.hdSendStride then
    hdSendKick c
      (slice tx (c.hdSendStride * i) (c.hdSendStride * i + c.opcodeMax))
      (slice tx (c.hdSendStride * i + c.opcodeMax)
        (c.hdSendStride * i + c.hdSendStride))
      (8 * c.opcodeMax) (8 * c.hdSendData)
  else
    let base := c.hdSendStride * (n / c.hdSendStride)
    let rem := n % c.hdSendStride
    if rem ≤ c.opcodeMax then
      hdSendKick c (slice tx base (base + rem)) [] (8 * rem) 0
    else
      hdSendKick c (slice tx base (base + c.opcodeMax))
        (slice tx (base + c.opcodeMax) (base + rem))
        (8 * c.opcodeMax) (8 * (rem - c.opcodeMax))

/-! ### Half-duplex receive -/

/-- `total_chunks` of `hd_recv_plan(cmd, n, dst0)` (R184). -/
def hdRecvCount (c : Config) (n : Nat) : Nat :=
  n / c.hdRxChunk + (if 0 < n % c.hdRxChunk then 1 else 0)

/-- The received bytes of chunk `i` (`r` of R184). -/
def hdRecvBytes (c : Config) (n i : Nat) : Nat :=
  if i < n / c.hdRxChunk then c.hdRxChunk else n % c.hdRxChunk

/-- The opcode of chunk `i`: the command in chunk 0, the fake opcode after it (R184). -/
def hdRecvOp (cmd : List Byte) (i : Nat) : List Byte := if i = 0 then cmd else []

/-- Chunk `i` of `hd_recv_plan(cmd, n, dst0)` (R184). -/
def hdRecvChunk (c : Config) (cmd : List Byte) (n dst0 i : Nat) : Chunk where
  op := hdRecvOp cmd i
  txd := []
  stageM := 0
  cmdBits := 8 * (hdRecvOp cmd i).length
  dataBits := 8 * hdRecvBytes c n i
  dir := .rx
  rxN := hdRecvBytes c n i
  rxSlot0 := 0
  rxDst := dst0 + c.hdRxChunk * i
  ctrlMask := c.mbEn

/-! ### Full duplex -/

/-- The effective byte count of iteration `i` for a side of `n` bytes (`s_i` and `r_i` of R210). -/
def fdBytes (c : Config) (n i : Nat) : Nat :=
  if i < n / c.fdChunk then c.fdChunk
  else if i = n / c.fdChunk then n % c.fdChunk
  else 0

/-- `loop_count` (R210). -/
def fdLoopCount (c : Config) (tl rl : Nat) : Nat :=
  max (tl / c.fdChunk) (rl / c.fdChunk) +
    (if 0 < tl % c.fdChunk ∨ 0 < rl % c.fdChunk then 1 else 0)

/-- The command-phase bytes `o_i` of iteration `i` (R210). -/
def fdOpBytes (c : Config) (tl i : Nat) : Nat := min c.opcodeMax (fdBytes c tl i)

/-- The bus bytes `b_i` of iteration `i` (R210). -/
def fdBusBytes (c : Config) (tl rl i : Nat) : Nat := max (fdBytes c tl i) (fdBytes c rl i)

/-- `total_chunks` of `fd_plan(tl, rl)`: the kicked iterations (R212). -/
def fdCount (c : Config) (tl rl : Nat) : Nat := max (ceilDiv tl c.fdChunk) (ceilDiv rl c.fdChunk)

/-- Chunk `i` of `fd_plan(tl, rl)` for the bytes `tx` (R212). -/
def fdChunkAt (c : Config) (tx : List Byte) (tl rl i : Nat) : Chunk where
  op := slice tx (c.fdChunk * i) (c.fdChunk * i + fdOpBytes c tl i)
  txd := slice tx (c.fdChunk * i + fdOpBytes c tl i) (c.fdChunk * i + fdBytes c tl i)
  stageM := c.fdSendSlots
  cmdBits := 8 * fdOpBytes c tl i
  dataBits := 8 * (fdBusBytes c tl rl i - fdOpBytes c tl i)
  dir := .fd
  rxN := fdBytes c rl i
  rxSlot0 := c.fdRxBase
  rxDst := c.fdChunk * i
  ctrlMask := c.mbEn ||| c.duplexEn

/-! ### The plan of an accepted request -/

/-- The number of kicks of a request: its family's plan count (R26). -/
def planCount (c : Config) (op : Op) (txLen rxLen rxBase : Nat) : Nat :=
  match op with
  | .send | .sendAsync => hdSendCount c txLen
  | .receive | .sendRecv | .sendRecvAsync => hdRecvCount c (rxLen - rxBase)
  | .sendRecvFd => fdCount c txLen rxLen
  | .configure | .registerCallback => 0

/-- `chunk(i)` of the request held in a context (R154). -/
def chunkOf (c : Config) (x : Context) (i : Nat) : Chunk :=
  match x.reqOp with
  | .send | .sendAsync => hdSendChunk c x.tx x.txLen.toNat i
  | .receive | .sendRecv | .sendRecvAsync =>
    hdRecvChunk c x.cmd (x.rxLen.toNat - x.rxBase.toNat) x.rxBase.toNat i
  | .sendRecvFd => fdChunkAt c x.tx x.txLen.toNat x.rxLen.toNat i
  | .configure | .registerCallback => hdRecvChunk c [] 0 0 i

/-- `chunk(ci)`: the chunk being programmed or awaited (R25). -/
def State.chunk (s : State) : Chunk := chunkOf s.config s.ctx s.ci.toNat

end Sys2Proof.Machine
end

