-- ==== Sys2Proof/Machine/Operands.lean ====
section
/-! DEFINITION. The operands of the commands: the conditions admission puts on them (R150) and what
an accepted transfer command latches from them (R153). -/

namespace Sys2Proof.Machine

/-- The command word's CMDLEN is legal: the opcode field holds the command (R150 check 1, R107). -/
def cmdLegal (c : Config) (cmd : List Byte) : Bool := decide (cmd.length ≤ c.opcodeMax)

/-- The operand condition of SEND and SEND_ASYNC: `TXLEN ≥ 1` (R150 check 2). -/
def sendOperandsOk (tx : List Byte) : Bool := decide (1 ≤ tx.length)

/-- The operand condition of RECEIVE: `RXLEN ≥ 1` (R150 check 2). -/
def receiveOperandsOk (rxLen : Word) : Bool := decide (1 ≤ rxLen.toNat)

/-- The operand condition of SEND_RECV and SEND_RECV_ASYNC: `RXLEN > CMDLEN` (R150 check 2). -/
def combinedOperandsOk (cmd : List Byte) (rxLen : Word) : Bool :=
  decide (cmd.length < rxLen.toNat)

/-- The operand condition of SEND_RECV_FD: `TXLEN + RXLEN ≥ 1` (R150 check 2). -/
def duplexOperandsOk (tx : List Byte) (rxLen : Word) : Bool :=
  decide (1 ≤ tx.length + rxLen.toNat)

/-- The operand condition of REGISTER_CALLBACK: `CBH ≠ 0` (R150 check 2). -/
def callbackOperandsOk (cbh : Word) : Bool := cbh != 0

/-- The send bytes can be counted by TXLEN; a record with more is ill-formed (R10, R100). -/
def txCountable (c : Config) (tx : List Byte) : Bool := decide (tx.length < 2 ^ c.lenWidth)

/-- What an accepted transfer command latches: its operands and the family's `rx_base` (R153). What
a command does not use latches as empty or 0: the send bytes of a record whose command sends none,
and RXLEN where it receives none, are not kept (notes/assumptions/30.md). -/
structure Request where
  op : Op
  cmd : List Byte
  tx : List Byte
  rxLen : Word
  rxBase : Nat
deriving DecidableEq, Repr

/-- The request of a half-duplex send (R187, R234). -/
def sendRequest (op : Op) (tx : List Byte) : Request :=
  { op := op, cmd := [], tx := tx, rxLen := 0, rxBase := 0 }

/-- The request of a half-duplex receive whose data start at `rxBase` (R188, R190, R236). -/
def recvRequest (op : Op) (cmd : List Byte) (rxLen : Word) (rxBase : Nat) : Request :=
  { op := op, cmd := cmd, tx := [], rxLen := rxLen, rxBase := rxBase }

/-- The request of a full-duplex transfer (R214). -/
def duplexRequest (tx : List Byte) (rxLen : Word) : Request :=
  { op := .sendRecvFd, cmd := [], tx := tx, rxLen := rxLen, rxBase := 0 }

/-- The context a request latches, with `rx_buf <- [⊥] × RXLEN` (R153). -/
def Request.context (q : Request) (ord : BitOrder) : Context where
  reqOp := q.op
  ord := ord
  cmd := q.cmd
  cmdLen := BitVec.ofNat 3 q.cmd.length
  tx := q.tx
  txLen := BitVec.ofNat 32 q.tx.length
  rxLen := q.rxLen
  rxBuf := List.replicate q.rxLen.toNat none
  rxBase := BitVec.ofNat 32 q.rxBase

/-- The family's plan count of a request (R26). -/
def Request.chunks (c : Config) (q : Request) : Nat :=
  planCount c q.op q.tx.length q.rxLen.toNat q.rxBase

/-- The bytes written into a receive buffer from index `dst` on (R160). -/
def fillRx (buf : List (Option Byte)) (dst : Nat) (bytes : List Byte) : List (Option Byte) :=
  buf.take dst ++ bytes.map some ++ buf.drop (dst + bytes.length)

/-- What the response or event of the held request carries (R167, R168, R242, R244). -/
def State.out (s : State) : List (Option Byte) :=
  if s.ctx.reqOp.receives then s.ctx.rxBuf else []

end Sys2Proof.Machine
end

