-- ==== Sys2Proof/Machine/Controller.lean ====
section
/-! DEFINITION. The reference controller of R80 to R87: what the block's register-bus events do to
its registers, when it shows BUSY, and what a kick clocks onto the wire and stores into the slots.
The block's own rules depend on none of it. -/

namespace Sys2Proof.Machine

/-- A 32-bit write of a register; STATUS is never written (R40, R65). -/
def RefController.write (c : RefController) (r : Reg) (v : Word) : RefController :=
  match r with
  | .ctrl => { c with ctrl := v }
  | .opcode => { c with opcode := v }
  | .data j => { c with data := c.data.set j.val v j.isLt }
  | .mblen => { c with mblen := v }
  | .status => c

/-- The stored contents of a register; STATUS is not stored but answered by `statusWord`. -/
def RefController.stored (c : RefController) : Reg → Word
  | .ctrl => c.ctrl
  | .opcode => c.opcode
  | .data j => c.data[j]
  | .mblen => c.mblen
  | .status => 0

/-- The start of a kick: the transfer takes the registers as START finds them (R66, R72). An
interrupt that an earlier transfer could still raise is dropped (notes/assumptions/32.md). -/
def RefController.startKick (c : RefController) (ord : BitOrder) : RefController :=
  { c with
    kick := some
      { ord := ord
        cmdBytes := c.cmdBits / 8
        dataBytes := c.dataBits / 8
        dir := c.dir
        opcode := c.opcode
        slots := c.data }
    irqReady := false }

/-- `set_bits`: the register becomes `old | m`; START has the side effect of a kick (R65, R66). -/
def RefController.setBits (c : RefController) (cfg : Config) (ord : BitOrder) (r : Reg) (m : Word) :
    RefController :=
  let c' := c.write r (c.stored r ||| m)
  if r = .ctrl ∧ m &&& cfg.start ≠ 0 then c'.startKick ord else c'

/-- `clear_bits`: the register becomes `old & ~m` (R65). -/
def RefController.clearBits (c : RefController) (r : Reg) (m : Word) : RefController :=
  c.write r (c.stored r &&& ~~~m)

/-- A write of MBLEN that encodes the given lengths and direction (R39). -/
def RefController.setLength (c : RefController) (cmdBits dataBits : Nat) (dir : Dir) :
    RefController :=
  { c.write .mblen (Config.mblenEnc cmdBits dataBits dir) with
    cmdBits := cmdBits
    dataBits := dataBits
    dir := dir }

/-- The status word: any value that shows BUSY exactly while a transfer is in progress (R81). -/
def RefController.statusWord (c : RefController) (cfg : Config) (raw : Word) : Word :=
  if c.kick.isSome then
    if raw &&& cfg.busyMask = 0 then raw ||| cfg.busyMask else raw
  else raw &&& ~~~cfg.busyMask

/-- `n` bus bytes from the slave's list, then free bytes numbered from `f`: the bytes, the rest of
the list, the next number. -/
def drawBytes : Nat → List Byte → Nat → List Byte × List Byte × Nat
  | 0, q, f => ([], q, f)
  | n + 1, b :: q, f =>
    let r := drawBytes n q f
    (b :: r.1, r.2)
  | n + 1, [], f =>
    let r := drawBytes n [] (f + 1)
    (Config.freeByte f :: r.1, r.2)

/-- The bytes of the command phase (R82); none where the command phase is skipped. No bytes either
where R82 gives the kick no meaning, beyond four command bytes (notes/assumptions/29.md). -/
def Kick.cmdWire (k : Kick) (cfg : Config) : List Byte :=
  (unpackWord cfg k.opcode k.cmdBytes k.ord).getD []

/-- The bytes the controller clocks out in the data phase (R83, R84). No bytes where R83 gives the
kick no meaning, beyond the slots (notes/assumptions/29.md). -/
def Kick.dataWire (k : Kick) (cfg : Config) : List Byte :=
  match k.dir with
  | .tx | .fd => (unpackSlots cfg k.slots.toList k.dataBytes k.ord).getD []
  | .rx => List.replicate k.dataBytes cfg.rxFill

/-- The bits of a byte in the order they are clocked (R82). -/
def wireBits (ord : BitOrder) (b : Byte) : List Bool :=
  match ord with
  | .msbFirst => (List.range 8).map fun i => b.getLsbD (7 - i)
  | .lsbFirst => (List.range 8).map fun i => b.getLsbD i

/-- The bits a kick clocks out, command phase first (R82 to R85). -/
def Kick.bits (k : Kick) (cfg : Config) : List Bool :=
  (k.cmdWire cfg ++ k.dataWire cfg).flatMap (wireBits k.ord)

/-- Consecutive words stored into the slots from `base` on. -/
def storeWords (data : Vector Word 8) : Nat → List Word → Vector Word 8
  | _, [] => data
  | base, w :: ws => storeWords (data.setIfInBounds base w) (base + 1) ws

/-- The slots after a kick that received the bus bytes `q`, command phase included: a receive kick
drops the command-phase bytes (R84), a full-duplex kick keeps them all (R85), a transmit kick
stores nothing (R86). Nothing is stored where R84 or R85 gives the kick no meaning, beyond the slots
(notes/assumptions/29.md). -/
def Kick.storeRx (k : Kick) (cfg : Config) (data : Vector Word 8) (q : List Byte) : Vector Word 8 :=
  match k.dir with
  | .tx => data
  | .rx => storeWords data 0 ((packSlots cfg (q.drop k.cmdBytes) k.ord).getD [])
  | .fd => storeWords data cfg.fdRxBase ((packSlots cfg q k.ord).getD [])

/-- The end of transfer `k`: BUSY clears, a completion interrupt may be raised, the wire and the
slots hold what the transfer clocked (R81 to R86). -/
def RefController.endKick (c : RefController) (cfg : Config) (k : Kick) (q rest : List Byte) :
    RefController :=
  { c with
    kick := none
    irqReady := true
    data := k.storeRx cfg c.data q
    slave := rest
    wire := c.wire ++ k.bits cfg }

end Sys2Proof.Machine
end

