-- ==== Sys2Proof/Machine/Ops.lean ====
section
/-! DEFINITION. The named operations every procedure is built from: events of the trace (R12, R60),
the register bus and its read answers (R61), the chip-select output (R41), responses and completion
events, admission (R150 to R153), the entry of the completion interrupt and the error ends of a
request (R240, R168, R244), and reset (R300, R302). The block has no data memory (R62). -/

namespace Sys2Proof.Machine

/-- One event appended to the trace (R60). -/
def State.event (s : State) (e : Event) : State := { s with trace := s.trace ++ [e] }

/-! ### What an event is at the block's ports (R4, R12) -/

/-- A transaction at one of the block's ports, with the register offset or pin it names. -/
inductive PortAction where
  | write32 (offset value : Word)
  | read32 (offset answer : Word)
  | setBits (offset mask : Word)
  | clearBits (offset mask : Word)
  | setOutput (pin : Word) (level : Bool)
  | response (status : Nat) (rx : List (Option Byte))
  | completion (handle : Word) (code : Nat) (udata : Word) (rx : List (Option Byte))
deriving DecidableEq, Repr

/-- The port transaction of an event (R12). -/
def Event.port (c : Config) : Event → PortAction
  | .write r v => .write32 (c.offset r) v
  | .read r v => .read32 (c.offset r) v
  | .setBits r m => .setBits (c.offset r) m
  | .clearBits r m => .clearBits (c.offset r) m
  | .cs level => .setOutput c.csPin level
  | .respond st rx => .response st.code rx
  | .emit h code u rx => .completion h code.code u rx

/-! ### The register bus -/

/-- `W(reg, v)` (R12). -/
def State.busWrite (s : State) (r : Reg) (v : Word) : State :=
  { s with
    controller :=
      match s.controller with
      | .oracle => .oracle
      | .reference c => .reference (c.write r v)
    trace := s.trace ++ [.write r v] }

/-- `W(REG_MBLEN, MBLEN_ENC(cmd_bits, data_bits, dir))` (R39). -/
def State.busWriteLength (s : State) (cmdBits dataBits : Nat) (dir : Dir) : State :=
  { s with
    controller :=
      match s.controller with
      | .oracle => .oracle
      | .reference c => .reference (c.setLength cmdBits dataBits dir)
    trace := s.trace ++ [.write .mblen (Config.mblenEnc cmdBits dataBits dir)] }

/-- `S(reg, m)` (R12, R65). -/
def State.busSet (s : State) (r : Reg) (m : Word) : State :=
  { s with
    controller :=
      match s.controller with
      | .oracle => .oracle
      | .reference c => .reference (c.setBits s.config s.ctx.ord r m)
    trace := s.trace ++ [.setBits r m] }

/-- `C(reg, m)` (R12, R65). -/
def State.busClear (s : State) (r : Reg) (m : Word) : State :=
  { s with
    controller :=
      match s.controller with
      | .oracle => .oracle
      | .reference c => .reference (c.clearBits r m)
    trace := s.trace ++ [.clearBits r m] }

/-- The next answer of the read oracle: the environment's, else a free value (R61). -/
def State.oracleValue (s : State) : Word :=
  match s.answers with
  | v :: _ => v
  | [] => Config.freeRead s.freeCount

/-- The value `R(reg)` returns: the oracle's, except where the reference controller fixes it
(R61, R81, R84, R85). -/
def State.readValue (s : State) (r : Reg) : Word :=
  match s.controller with
  | .oracle => s.oracleValue
  | .reference c =>
    match r with
    | .data j => c.stored (.data j)
    | .status => c.statusWord s.config s.oracleValue
    | .ctrl | .opcode | .mblen => s.oracleValue

/-- Whether `R(reg)` takes an answer of the oracle. -/
def State.readDraws (s : State) (r : Reg) : Bool :=
  match s.controller with
  | .oracle => true
  | .reference _ =>
    match r with
    | .data _ => false
    | .status | .ctrl | .opcode | .mblen => true

/-- `R(reg)`: the state after the read, whose value is `readValue` (R12, R61). -/
def State.busRead (s : State) (r : Reg) : State :=
  { s with
    answers := if s.readDraws r then s.answers.tail else s.answers
    freeCount := if s.readDraws r && s.answers.isEmpty then s.freeCount + 1 else s.freeCount
    trace := s.trace ++ [.read r (s.readValue r)] }

/-! ### Chip-select, responses and completion events -/

/-- The level of a chip-select state (R41). -/
def csLevel (c : Config) : CsState → Bool
  | .asserted => c.csAssertLevel
  | .deasserted => !c.csAssertLevel

/-- A write of `cs_state`, which emits `CS(level)` only on a change (R41). -/
def State.setCs (s : State) (x : CsState) : State :=
  { s with
    csState := x
    trace := if s.csState = x then s.trace else s.trace ++ [.cs (csLevel s.config x)] }

/-- `Respond(status, rx)` (R12). -/
def State.respond (s : State) (st : Status) (rx : List (Option Byte)) : State :=
  s.event (.respond st rx)

/-- `Emit(code, cb_udata, rx)` to the callback `cb_handle` (R12, R242). -/
def State.emitCompletion (s : State) (code : EventCode) (rx : List (Option Byte)) : State :=
  s.event (.emit s.cbHandle code s.cbUdata rx)

/-! ### Admission -/

/-- A refusal at admission: one response, no state change (R151). -/
def State.refuse (s : State) (st : Status) : State := s.respond st []

/-- A write of `irq_mask` (R32). -/
def State.withMask (s : State) (b : Bool) : State := { s with irqMask := b }

/-- The busy test-and-set: one atomic step under `irq_mask`; `accept` is what an idle block does
(R152). -/
def State.testAndSet (s : State) (accept : State → State) : State :=
  let m := s.withMask true
  if m.busy then (m.withMask false).refuse .busy
  else (accept m).withMask false

/-- The admission checks in the order of R150: legal word, operand condition, callback, busy. -/
def State.admission (s : State) (legal operandsOk callbackOk : Bool) (accept : State → State) :
    State :=
  if !legal then s.refuse .invalidParameter
  else if !operandsOk then s.refuse .invalidParameter
  else if !callbackOk then s.refuse .invalidParameter
  else s.testAndSet accept

/-- The latch of an accepted transfer command (R153); an async one also clears `irq_pending`
(R46, R230). -/
def State.latch (s : State) (q : Request) : State :=
  { s with
    busy := true
    ctx := q.context s.bitOrder
    ci := 0
    totalChunks := BitVec.ofNat 32 (q.chunks s.config)
    completedCount := 0
    fsm := .run
    pos := .csAssert
    irqPending := if q.op.isAsync then false else s.irqPending }

/-! ### Interrupt entry and the ends of a request -/

/-- The entry of the completion interrupt, one step; it saves no state (R240, R281). -/
def State.takeInterrupt (s : State) : State :=
  { s with irqPending := false, fsm := .isr, pos := .isrClear }

/-- The return of the interrupt procedure, and of `start_async`, to waiting (R240, R282). -/
def State.toWaitIrq (s : State) : State := { s with fsm := .waitIrq, pos := .none }

/-- The release of the controller in the last step of a request: `busy <- 0`, `fsm <- IDLE`
(R167, R168, R242, R244). The request's context stays as it is (notes/assumptions/31.md). -/
def State.release (s : State) : State := { s with busy := false, fsm := .idle, pos := .none }

/-- Step 2 of `finish_poll` and `abort_poll`: release and respond (R167, R168). -/
def State.endPoll (s : State) (st : Status) : State := s.release.respond st s.out

/-- Step 2 of `finish_async` and `abort_async`: the counter is cleared, release and emit (R242,
R244). -/
def State.endAsync (s : State) (code : EventCode) : State :=
  { s.release with completedCount := 0 }.emitCompletion code s.out

/-! ### Inputs that are no commands -/

/-- A completion-interrupt pulse. The reference controller raises at most one per START, after the
transfer's end (R81); an oracle controller may pulse at any time (R276). -/
def State.irqPulse (s : State) : State :=
  match s.controller with
  | .oracle => s.latchIrq
  | .reference c =>
    if c.irqReady then
      { s with controller := .reference { c with irqReady := false } }.latchIrq
    else s

/-- The end of the reference controller's transfer, where one is in progress (R81). -/
def State.transferEnd (s : State) : State :=
  match s.controller with
  | .oracle => s
  | .reference c =>
    match c.kick with
    | none => s
    | some k =>
      let r := drawBytes (k.cmdBytes + k.dataBytes) c.slave s.freeCount
      { s with
        controller := .reference (c.endKick s.config k r.1 r.2.1)
        freeCount := r.2.2 }

/-- Reset: every element of the block at its reset value, with no event; what lies outside the
block (its configuration, the controller, the environment, the trace already emitted) stays
(R300 to R302). -/
def State.hardReset (s : State) : State :=
  { State.reset with
    config := s.config
    controller := s.controller
    inputs := s.inputs
    answers := s.answers
    freeCount := s.freeCount
    trace := s.trace }

end Sys2Proof.Machine
end

