-- ==== Sys2Proof/Machine/Engine.lean ====
section
/-! DEFINITION. The block's own steps: the Transaction Engine's procedures `program`, `poll`,
`kick_poll`, `readback`, `run_poll`, `finish_poll` and `abort_poll` (41_engine_common.md), and the
Completion Coordinator's `start_async`, interrupt procedure, `finish_async` and `abort_async`
(44_async_completion.md), one event a step. Statements that emit nothing happen in the step of the
last event before them (R165, R240). -/

namespace Sys2Proof.Machine

/-- The opcode word of a chunk: `pack_word(op, ord)`, or the fake opcode 0 (R157, R158). -/
def opcodeWord (g : Config) (c : Chunk) (ord : BitOrder) : Option Word :=
  if 0 < c.op.length then packWord g c.op ord else some 0

/-- The word `program` writes to send slot `j` (R156). -/
def slotWord (g : Config) (c : Chunk) (ord : BitOrder) (j : Nat) : Option Word :=
  match stage g c.txd ord c.stageM with
  | some ws => ws[j]?
  | none => none

/-- The slot the `j`-th read of a chunk's readback reads (R160). -/
def readbackSlot (c : Chunk) (j : Nat) : Fin 8 := Fin.ofNat 8 (c.rxSlot0 + j)

/-- The number of slots a chunk's readback reads (R160). -/
def readbackCount (g : Config) (c : Chunk) : Nat := ceilDiv c.rxN g.slotBytes

/-! ### Where a procedure goes next -/

/-- After `S(REG_CTRL, START)`: the interrupt procedure waits again (R240), `start_async` responds
(R231), a polling request polls with `poll_cnt <- 0` (R161). -/
def State.afterStart (s : State) : State :=
  if s.fsm = .isr then s.toWaitIrq
  else if s.ctx.reqOp.isAsync then { s with pos := .acceptRespond }
  else { s with pollCnt := 0, pos := .poll }

/-- After a polled kick that returned OK: `ci <- ci + 1` and the loop test of `run_poll` (R165). -/
def State.polledDone (s : State) : State :=
  { s with
    ci := s.ci + 1
    pos := if (s.ci + 1).toNat < s.totalChunks.toNat then .wOpcode else .finishCs }

/-- After an awaited kick without an error: the count, the compare and the next chunk (R240). -/
def State.awaitedDone (s : State) : State :=
  if s.completedCount + 1 = s.totalChunks then
    { s with completedCount := s.completedCount + 1, pos := .finishAsyncCs }
  else
    { s with completedCount := s.completedCount + 1, ci := s.ci + 1, pos := .wOpcode }

/-- After a kick that succeeded and was read back, on either path. -/
def State.kickDone (s : State) : State :=
  if s.fsm = .isr then s.awaitedDone else s.polledDone

/-- After a kick's outcome is known to be good: `readback` where the chunk receives (R160). -/
def State.afterOk (s : State) : State :=
  if 0 < s.chunk.rxN then { s with pos := .readback 0 [] } else s.kickDone

/-- After `C(REG_CTRL, ctrl_mask)` of a polled kick: the classification (R163, R164). -/
def State.afterClear (s : State) (p : Option Word) : State :=
  match classify s.config p with
  | .ok => s.afterOk
  | st => { s with pos := .abortCs st }

/-- After a status read of `poll`: it ends on BUSY clear, else on the budget (R161). -/
def State.afterPoll (s : State) (v : Word) : State :=
  { s with
    pollCnt := s.pollCnt + 1
    pos :=
      if !statusBusy s.config v then .cMode (some v)
      else if s.config.pollBudget ≤ (s.pollCnt + 1).toNat then .cMode none
      else .poll }

/-- After the status read of the interrupt procedure (R240). -/
def State.afterIsrStatus (s : State) (v : Word) : State :=
  if statusErr s.config v then { s with pos := .abortAsyncCs } else s.afterOk

/-! ### The steps -/

/-- `W(REG_OPCODE, …)` of `program` (R156). -/
def stepOpcode (s : State) : Result :=
  match opcodeWord s.config s.chunk s.ctx.ord with
  | none => .fault .codecDomain
  | some w =>
    .next { s.busWrite .opcode w with
      pos := if 0 < s.chunk.stageM then .wData 0 else .wMblen }

/-- `W(REG_DATA(j), …)` of `program` (R156). -/
def stepData (s : State) (j : Fin 8) : Result :=
  match slotWord s.config s.chunk s.ctx.ord j.val with
  | none => .fault .codecDomain
  | some w =>
    .next { s.busWrite (.data j) w with
      pos := if j.val + 1 < s.chunk.stageM then .wData (j + 1) else .wMblen }

/-- `W(REG_MBLEN, …)` of `program` (R156). -/
def stepMblen (s : State) : State :=
  { s.busWriteLength s.chunk.cmdBits s.chunk.dataBits s.chunk.dir with pos := .sMode }

/-- `S(REG_CTRL, ctrl_mask)` of `program` (R156). -/
def stepMode (s : State) : State := { s.busSet .ctrl s.chunk.ctrlMask with pos := .sStart }

/-- `S(REG_CTRL, START)` of `program`: the kick (R156). -/
def stepStart (s : State) : State := (s.busSet .ctrl s.config.start).afterStart

/-- One status read of `poll` (R161). -/
def stepPoll (s : State) : State := (s.busRead .status).afterPoll (s.readValue .status)

/-- `C(REG_CTRL, ctrl_mask)` of `kick_poll`, on every outcome (R159, R164). -/
def stepClear (s : State) (p : Option Word) : State :=
  (s.busClear .ctrl s.chunk.ctrlMask).afterClear p

/-- One slot read of `readback`; the last one decodes into `rx_buf` (R160). -/
def stepReadback (s : State) (j : Nat) (w : List Word) : Result :=
  let c := s.chunk
  let r := Reg.data (readbackSlot c j)
  let w' := w ++ [s.readValue r]
  if j + 1 < readbackCount s.config c then .next { s.busRead r with pos := .readback (j + 1) w' }
  else
    match unpackSlots s.config w' c.rxN s.ctx.ord with
    | none => .fault .codecDomain
    | some bytes =>
      .next { s.busRead r with
        ctx := { s.ctx with rxBuf := fillRx s.ctx.rxBuf c.rxDst bytes } }.kickDone

/-- The step at a position of a running procedure (R30). -/
def procStep (s : State) : Result :=
  match s.pos with
  | .none => .next s
  | .csAssert => .next { s.setCs .asserted with pos := .wOpcode }
  | .wOpcode => stepOpcode s
  | .wData j => stepData s j
  | .wMblen => .next (stepMblen s)
  | .sMode => .next (stepMode s)
  | .sStart => .next (stepStart s)
  | .poll => .next (stepPoll s)
  | .cMode p => .next (stepClear s p)
  | .readback j w => stepReadback s j w
  | .finishCs => .next { s.setCs .deasserted with pos := .finishRespond }
  | .finishRespond => .next (s.endPoll .ok)
  | .abortCs st => .next { s.setCs .deasserted with pos := .abortRespond st }
  | .abortRespond st => .next (s.endPoll st)
  | .acceptRespond => .next (s.toWaitIrq.respond .ok [])
  | .isrClear => .next { s.busClear .ctrl s.config.mbEn with pos := .isrStatus }
  | .isrStatus => .next ((s.busRead .status).afterIsrStatus (s.readValue .status))
  | .finishAsyncCs => .next { s.setCs .deasserted with pos := .finishAsyncEmit }
  | .finishAsyncEmit => .next (s.endAsync .finished)
  | .abortAsyncCs => .next { s.setCs .deasserted with pos := .abortAsyncEmit }
  | .abortAsyncEmit => .next (s.endAsync .error)

/-- The block's own next step (R29): nothing while idle, the interrupt's entry where it can be
taken, else the running procedure. A block that waits keeps its state (R246). -/
def blockStep (s : State) : Result :=
  match s.fsm with
  | .idle => .next s
  | .waitIrq => if s.irqTakeable then .next s.takeInterrupt else .next s
  | .run => procStep s
  | .isr => procStep s

end Sys2Proof.Machine
end

