-- ==== Sys2Proof/Machine/Async.lean ====
section
/-! DEFINITION. The async commands SEND_ASYNC and SEND_RECV_ASYNC (44_async_completion.md): they
need a registered callback (R232), and their chunks after the first are run by the completion
interrupt (R240; Engine.lean). -/

namespace Sys2Proof.Machine

/-- SEND_ASYNC (R234): `start_async` over `hd_send_plan(TXLEN)`. -/
def execSendAsync (tx : List Byte) (s : State) : Result :=
  if txCountable s.config tx then
    .next (s.admission true (sendOperandsOk tx) s.cbValid fun t =>
      t.latch (sendRequest .sendAsync tx))
  else .fault .illFormedRecord

/-- SEND_RECV_ASYNC (R236): `start_async` over `hd_recv_plan(cmd, RXLEN − CMDLEN, CMDLEN)`. -/
def execSendRecvAsync (cmd : List Byte) (rxLen : Word) (s : State) : Result :=
  .next (s.admission (cmdLegal s.config cmd) (combinedOperandsOk cmd rxLen) s.cbValid fun t =>
    t.latch (recvRequest .sendRecvAsync cmd rxLen cmd.length))

end Sys2Proof.Machine
end

