-- ==== Sys2Proof/Machine/FullDuplex.lean ====
section
/-! DEFINITION. The full-duplex command SEND_RECV_FD (43_full_duplex.md). -/

namespace Sys2Proof.Machine

/-- SEND_RECV_FD (R214): `run_poll` over `fd_plan(TXLEN, RXLEN)`. -/
def execSendRecvFd (tx : List Byte) (rxLen : Word) (s : State) : Result :=
  if txCountable s.config tx then
    .next (s.admission true (duplexOperandsOk tx rxLen) true fun t =>
      t.latch (duplexRequest tx rxLen))
  else .fault .illFormedRecord

end Sys2Proof.Machine
end

