-- ==== Sys2Proof/Machine/HalfDuplex.lean ====
section
/-! DEFINITION. The polling half-duplex commands SEND, RECEIVE and SEND_RECV (42_half_duplex.md).
A meaning is the command's step at the request port: the admission checks and the latch of its
context; the procedure it starts then runs one event a step (R153, R165; Engine.lean). -/

namespace Sys2Proof.Machine

/-- SEND (R187): `run_poll` over `hd_send_plan(TXLEN)`. -/
def execSend (tx : List Byte) (s : State) : Result :=
  if txCountable s.config tx then
    .next (s.admission true (sendOperandsOk tx) true fun t => t.latch (sendRequest .send tx))
  else .fault .illFormedRecord

/-- RECEIVE (R188): `run_poll` over `hd_recv_plan(cmd, RXLEN, 0)`. -/
def execReceive (cmd : List Byte) (rxLen : Word) (s : State) : Result :=
  .next (s.admission (cmdLegal s.config cmd) (receiveOperandsOk rxLen) true fun t =>
    t.latch (recvRequest .receive cmd rxLen 0))

/-- SEND_RECV (R190): `run_poll` over `hd_recv_plan(cmd, RXLEN − CMDLEN, CMDLEN)`. -/
def execSendRecv (cmd : List Byte) (rxLen : Word) (s : State) : Result :=
  .next (s.admission (cmdLegal s.config cmd) (combinedOperandsOk cmd rxLen) true fun t =>
    t.latch (recvRequest .sendRecv cmd rxLen cmd.length))

end Sys2Proof.Machine
end

