-- ==== Sys2Proof/Machine/Session.lean ====
section
/-! DEFINITION. The session commands CONFIGURE and REGISTER_CALLBACK (45_session.md). -/

namespace Sys2Proof.Machine

/-- CONFIGURE (R260): one atomic step; `busy` is tested and never set. -/
def execConfigure (ord : BitOrder) (cfg : Word) (s : State) : Result :=
  .next (s.admission true true true fun t =>
    { t with bitOrder := ord, cfgOpaque := cfg }.respond .ok [])

/-- REGISTER_CALLBACK (R262): one atomic step; a null handle is refused. -/
def execRegisterCallback (cbh udata : Word) (s : State) : Result :=
  .next (s.admission true (callbackOperandsOk cbh) true fun t =>
    { t with cbValid := true, cbHandle := cbh, cbUdata := udata }.respond .ok [])

end Sys2Proof.Machine
end

