-- ==== Sys2Proof/Machine/Dispatch.lean ====
section
/-! DEFINITION. The meaning of every command, one arm per constructor. -/

namespace Sys2Proof.Machine

def exec (i : Instr) (s : State) : Host.Outcome State Fault Refusal :=
  match i with
  | .configure ord cfg => Sys2Proof.Machine.execConfigure ord cfg s
  | .registerCallback cbh udata => Sys2Proof.Machine.execRegisterCallback cbh udata s
  | .send tx => Sys2Proof.Machine.execSend tx s
  | .receive cmd rxLen => Sys2Proof.Machine.execReceive cmd rxLen s
  | .sendRecv cmd rxLen => Sys2Proof.Machine.execSendRecv cmd rxLen s
  | .sendRecvFd tx rxLen => Sys2Proof.Machine.execSendRecvFd tx rxLen s
  | .sendAsync tx => Sys2Proof.Machine.execSendAsync tx s
  | .sendRecvAsync cmd rxLen => Sys2Proof.Machine.execSendRecvAsync cmd rxLen s

end Sys2Proof.Machine
end

