-- ==== Sys2Proof/Machine/Port.lean ====
section
/-! DEFINITION. The request port and the input stream: what taking a request record does. -/

namespace Sys2Proof.Machine

/-- The request port takes a record: an ill-formed one stops the model (R100, R275), an illegal
command word is answered InvalidParameter with no other effect (R107), a command is executed. -/
def takeRecord (r : Record) (s : State) : Result :=
  match decode r with
  | .error .illFormedRecord => .fault .illFormedRecord
  | .error .reservedBits => .next (s.refuse .invalidParameter)
  | .error .reservedOp => .next (s.refuse .invalidParameter)
  | .error .badCmdLen => .next (s.refuse .invalidParameter)
  | .error .badOrd => .next (s.refuse .invalidParameter)
  | .ok i => exec i s

/-- The state after its next input is taken from the stream. -/
def State.popInput (s : State) : State := { s with inputs := s.inputs.tail }

end Sys2Proof.Machine
end

