-- ==== Sys2Proof/Machine/Step.lean ====
section
/-! DEFINITION. One step of the machine: the outside world's next input, or the block's own step. -/

namespace Sys2Proof.Machine

/-- One step. -/
def step (s : State) : Host.Outcome State Fault Refusal :=
  match s.inputs with
  | [] => blockStep s
  | .tick :: _ => blockStep s.popInput
  | .command r :: _ => takeRecord r s.popInput
  | .irqPulse :: _ => .next s.popInput.irqPulse
  | .transferEnd :: _ => .next s.popInput.transferEnd
  | .reset :: _ => .next s.popInput.hardReset

/-- `s` with the command of a table word as the next input of the request port. -/
def State.withFetchWord (s : State) (nbits w : Nat) : State :=
  { s with inputs := .command (tableRecord nbits w) :: s.inputs }

end Sys2Proof.Machine
end

