-- ==== Sys2Proof/Machine/Instances.lean ====
section
/-! DEFINITION. Several controller instances side by side: independent copies of the machine, one
of which steps at a time (R45, R289). -/

namespace Sys2Proof.Machine

/-- The outcome of a step of several instances. -/
abbrev SystemResult := Host.Outcome (List State) Fault Refusal

/-- One step of instance `k`; selecting the port is selecting the instance (R45, R264). -/
def stepInstance (k : Nat) (ss : List State) : SystemResult :=
  match ss[k]? with
  | none => .next ss
  | some s =>
    match step s with
    | .next t => .next (ss.set k t)
    | .fault f => .fault f
    | .refused r => .refused r

end Sys2Proof.Machine
end

