-- ==== Sys2Proof/Safety.lean ====
section
/-! DEFINITION. The terms claims are stated in: which states are quiescent or stuck (R171), the
invariant every step keeps, the events a chunk and a whole request emit (R156, R160, R164, R167),
and the operand conditions of a command as one predicate (R150). -/

namespace Sys2Proof.Machine

/-- `n` steps of the machine. -/
abbrev runSteps (n : Nat) (s : State) : Result := Host.Core.run Sys2Proof.core n s

/-- The block is quiescent (R171). -/
def State.quiescent (s : State) : Prop := s.fsm = .idle

/-- The lost-interrupt state: waiting for an interrupt that no input brings (R171, R246). -/
def State.stuck (s : State) : Prop :=
  s.fsm = .waitIrq ∧ s.irqPending = false ∧ s.inputs = []

/-! ### Operands of a record -/

/-- The command bytes of a record: CMDLEN of them, byte j from `CMDB[8j+7 : 8j]` (R101, R103). -/
def carriesCmd (r : Record) (cmd : List Byte) : Prop :=
  cmd.length = r.cw.toNat / 16 % 8 ∧
    ∀ j, j < cmd.length → (cmd.getD j 0).toNat = r.cmdb.toNat / 2 ^ (8 * j) % 256

/-- A command's operands are those of a record's fields (R101, R103 to R105). -/
def carriesOperands (r : Record) : Instr → Prop
  | .configure ord cfg => (ord = .lsbFirst ↔ r.cw.getLsbD 7 = true) ∧ cfg = r.cfg
  | .registerCallback cbh udata => cbh = r.cbh ∧ udata = r.udata
  | .send tx => tx = r.tx
  | .receive cmd rxLen => carriesCmd r cmd ∧ rxLen = r.rxlen
  | .sendRecv cmd rxLen => carriesCmd r cmd ∧ rxLen = r.rxlen
  | .sendRecvFd tx rxLen => tx = r.tx ∧ rxLen = r.rxlen
  | .sendAsync tx => tx = r.tx
  | .sendRecvAsync cmd rxLen => carriesCmd r cmd ∧ rxLen = r.rxlen

/-! ### Commands at admission -/

/-- The command's own operand condition (R150 check 2). -/
def admissibleOperands : Instr → Bool
  | .configure _ _ => true
  | .registerCallback cbh _ => callbackOperandsOk cbh
  | .send tx => sendOperandsOk tx
  | .receive _ rxLen => receiveOperandsOk rxLen
  | .sendRecv cmd rxLen => combinedOperandsOk cmd rxLen
  | .sendRecvFd tx rxLen => duplexOperandsOk tx rxLen
  | .sendAsync tx => sendOperandsOk tx
  | .sendRecvAsync cmd rxLen => combinedOperandsOk cmd rxLen

/-- The callback condition (R150 check 3): only async commands have one. -/
def callbackCondition (i : Instr) (cbValid : Bool) : Bool := !i.op.isAsync || cbValid

/-- The commands that start a transfer (R153). -/
def transferOp : Op → Bool
  | .send | .receive | .sendRecv | .sendRecvFd | .sendAsync | .sendRecvAsync => true
  | .configure | .registerCallback => false

/-! ### Chunks -/

/-- A chunk within the codec's domain and the slot banks (R131, R133, R154). -/
structure ChunkInDomain (g : Config) (c : Chunk) : Prop where
  op_le : c.op.length ≤ 4
  txd_le : c.txd.length ≤ 4 * c.stageM
  stage_le : c.stageM ≤ 8
  rx_le : c.rxN ≤ 32
  rx_slots : c.rxSlot0 + readbackCount g c ≤ 8

/-- The events of the writes of consecutive send slots from `j` on (R156). -/
def slotEvents : Nat → List Word → List Event
  | _, [] => []
  | j, w :: ws => .write (.data (Fin.ofNat 8 j)) w :: slotEvents (j + 1) ws

/-- The events of `program(c)` (R156). -/
def programEvents (cfg : Config) (ord : BitOrder) (c : Chunk) : List Event :=
  .write .opcode ((opcodeWord cfg c ord).getD 0) ::
    (slotEvents 0 ((stage cfg c.txd ord c.stageM).getD []) ++
      [.write .mblen (Config.mblenEnc c.cmdBits c.dataBits c.dir),
       .setBits .ctrl c.ctrlMask,
       .setBits .ctrl cfg.start])

/-- The events of the reads of `readback(c)` from its `j`-th on, with their answers (R160). -/
def readbackEvents (c : Chunk) : Nat → List Word → List Event
  | _, [] => []
  | j, w :: ws => .read (.data (readbackSlot c j)) w :: readbackEvents c (j + 1) ws

/-- The events of status reads with their answers (R161). -/
def statusEvents (vs : List Word) : List Event := vs.map (.read .status)

/-- A receive buffer after `readback(c)` with the answers `ws` (R160). -/
def readbackBuf (cfg : Config) (ord : BitOrder) (c : Chunk) (ws : List Word)
    (buf : List (Option Byte)) : List (Option Byte) :=
  fillRx buf c.rxDst ((unpackSlots cfg ws c.rxN ord).getD [])

/-! ### Whole polling requests -/

/-- What the environment answers during one polled kick: status reads showing BUSY, the status read
that ends the poll (`none` where the budget ends it), and the slot reads. -/
structure KickAnswers where
  busyReads : List Word
  final : Option Word
  words : List Word
deriving DecidableEq, Repr

/-- Every status answer of one polled kick, in order. -/
def KickAnswers.statusReads (a : KickAnswers) : List Word := a.busyReads ++ a.final.toList

/-- Every answer of one polled kick, in order. -/
def KickAnswers.all (a : KickAnswers) : List Word := a.statusReads ++ a.words

/-- The answers of a polled kick that ends OK (R161, R163): BUSY clears within the budget without
error bits, and the chunk's slots are read. -/
def KickAnswers.good (cfg : Config) (c : Chunk) (a : KickAnswers) : Prop :=
  (∀ v ∈ a.busyReads, statusBusy cfg v = true) ∧
  a.busyReads.length < cfg.pollBudget ∧
  (∃ v, a.final = some v ∧ statusBusy cfg v = false ∧ statusErr cfg v = false) ∧
  a.words.length = readbackCount cfg c

/-- The answers of a polled kick that fails (R161, R163): the budget is exhausted, or BUSY clears
with error bits; no slot is read. -/
def KickAnswers.bad (cfg : Config) (a : KickAnswers) : Prop :=
  (∀ v ∈ a.busyReads, statusBusy cfg v = true) ∧ a.words = [] ∧
  ((a.final = none ∧ a.busyReads.length = cfg.pollBudget) ∨
    (a.busyReads.length < cfg.pollBudget ∧
      ∃ v, a.final = some v ∧ statusBusy cfg v = false ∧ statusErr cfg v = true))

/-- The events of `kick_poll(c)` under the given answers (R164). -/
def kickEvents (cfg : Config) (ord : BitOrder) (c : Chunk) (a : KickAnswers) : List Event :=
  programEvents cfg ord c ++ statusEvents a.statusReads ++ [.clearBits .ctrl c.ctrlMask] ++
    readbackEvents c 0 a.words

/-- The events of the chunks of a request from chunk `i` on (R165). -/
def loopEvents (cfg : Config) (x : Context) : Nat → List KickAnswers → List Event
  | _, [] => []
  | i, a :: rest => kickEvents cfg x.ord (chunkOf cfg x i) a ++ loopEvents cfg x (i + 1) rest

/-- The receive buffer after the chunks of a request from chunk `i` on (R160, R165). -/
def loopBuf (cfg : Config) (x : Context) :
    Nat → List KickAnswers → List (Option Byte) → List (Option Byte)
  | _, [], buf => buf
  | i, a :: rest, buf =>
    loopBuf cfg x (i + 1) rest (readbackBuf cfg x.ord (chunkOf cfg x i) a.words buf)

/-- Every kick of the chunks from `i` on is answered well. -/
def allGood (cfg : Config) (x : Context) : Nat → List KickAnswers → Prop
  | _, [] => True
  | i, a :: rest => a.good cfg (chunkOf cfg x i) ∧ allGood cfg x (i + 1) rest

/-- What a request responds with (R167, R168). -/
def outOf (x : Context) (buf : List (Option Byte)) : List (Option Byte) :=
  if x.reqOp.receives then buf else []

/-! ### The invariant -/

/-- The operand conditions an accepted request met, and its family's `rx_base` (R150, R153). -/
def requestConditions (x : Context) : Bool :=
  match x.reqOp with
  | .send | .sendAsync => decide (1 ≤ x.txLen.toNat) && x.rxLen == 0 && x.rxBase == 0
  | .receive => decide (1 ≤ x.rxLen.toNat) && x.rxBase == 0
  | .sendRecv | .sendRecvAsync =>
    decide (x.cmdLen.toNat < x.rxLen.toNat) && decide (x.rxBase.toNat = x.cmdLen.toNat)
  | .sendRecvFd => decide (1 ≤ x.txLen.toNat + x.rxLen.toNat) && x.rxBase == 0
  | .configure | .registerCallback => false

/-- The request context of an accepted request (R24, R153). -/
structure ContextInv (x : Context) : Prop where
  cmd_len : x.cmd.length = x.cmdLen.toNat
  cmd_le : x.cmd.length ≤ 4
  tx_len : x.tx.length = x.txLen.toNat
  rx_len : x.rxBuf.length = x.rxLen.toNat
  conditions : requestConditions x = true

/-- Which positions a sequencer state allows (R29, R30). -/
def posFits (fsm : Fsm) (async : Bool) (p : Pos) : Bool :=
  match fsm with
  | .idle => decide (p = .none)
  | .waitIrq => async && decide (p = .none)
  | .run =>
    match p with
    | .csAssert | .wOpcode | .wData _ | .wMblen | .sMode | .sStart => true
    | .poll | .cMode _ | .readback _ _ | .finishCs | .finishRespond | .abortCs _
    | .abortRespond _ => !async
    | .acceptRespond => async
    | .none | .isrClear | .isrStatus | .finishAsyncCs | .finishAsyncEmit | .abortAsyncCs
    | .abortAsyncEmit => false
  | .isr =>
    match p with
    | .wOpcode | .wData _ | .wMblen | .sMode | .sStart | .readback _ _ | .isrClear | .isrStatus
    | .finishAsyncCs | .finishAsyncEmit | .abortAsyncCs | .abortAsyncEmit => async
    | .none | .csAssert | .poll | .cMode _ | .finishCs | .finishRespond | .abortCs _
    | .abortRespond _ | .acceptRespond => false

/-- The chip-select state a position calls for (R42). -/
def csFor (fsm : Fsm) (p : Pos) : CsState :=
  match fsm with
  | .idle => .deasserted
  | .waitIrq => .asserted
  | .run | .isr =>
    match p with
    | .csAssert | .finishRespond | .abortRespond _ | .finishAsyncEmit | .abortAsyncEmit =>
      .deasserted
    | .none | .wOpcode | .wData _ | .wMblen | .sMode | .sStart | .poll | .cMode _ | .readback _ _
    | .finishCs | .abortCs _ | .acceptRespond | .isrClear | .isrStatus | .finishAsyncCs
    | .abortAsyncCs => .asserted

/-- What the local variables of a position `p` must satisfy in a state. -/
def posLocals (s : State) (p : Pos) : Prop :=
  match p with
  | .wData j => j.val < s.chunk.stageM
  | .poll => s.pollCnt.toNat < s.config.pollBudget
  | .readback j w => w.length = j ∧ j < readbackCount s.config s.chunk
  | .abortCs st => st = .hardwareTimeout ∨ st = .unclassifiedError
  | .abortRespond st => st = .hardwareTimeout ∨ st = .unclassifiedError
  | .none | .csAssert | .wOpcode | .wMblen | .sMode | .sStart | .cMode _ | .finishCs
  | .finishRespond | .acceptRespond | .isrClear | .isrStatus | .finishAsyncCs | .finishAsyncEmit
  | .abortAsyncCs | .abortAsyncEmit => True

/-- The counters of a running request at a position `p` (R25 to R27, R241). -/
def countersAt (s : State) (p : Pos) : Prop :=
  match p with
  | .finishCs | .finishRespond => s.ci = s.totalChunks ∧ s.completedCount = 0
  | .finishAsyncCs | .finishAsyncEmit =>
    s.ci.toNat + 1 = s.totalChunks.toNat ∧ s.completedCount = s.totalChunks
  | .none | .csAssert | .wOpcode | .wData _ | .wMblen | .sMode | .sStart | .poll | .cMode _
  | .readback _ _ | .abortCs _ | .abortRespond _ | .acceptRespond | .isrClear | .isrStatus
  | .abortAsyncCs | .abortAsyncEmit =>
    s.ci.toNat < s.totalChunks.toNat ∧
      s.completedCount = if s.ctx.reqOp.isAsync then s.ci else 0

/-- What holds of a state while a logical request holds the controller. -/
structure RequestInv (s : State) : Prop where
  context : ContextInv s.ctx
  total : s.totalChunks.toNat =
    planCount s.config s.ctx.reqOp s.ctx.txLen.toNat s.ctx.rxLen.toNat s.ctx.rxBase.toNat
  counters : countersAt s s.pos
  first : s.pos = .csAssert → s.ci = 0
  callback : s.ctx.reqOp.isAsync = true → s.cbValid = true

/-- The invariant of the machine. -/
structure State.Inv (s : State) : Prop where
  /-- `busy = 0` exactly when `fsm = IDLE` (R29). -/
  busy_iff : s.busy = false ↔ s.fsm = .idle
  /-- `irq_mask` is 0 between steps (R32, R152). -/
  mask : s.irqMask = false
  /-- The position fits the sequencer state (R29, R30). -/
  fits : posFits s.fsm s.ctx.reqOp.isAsync s.pos = true
  /-- Chip-select is asserted exactly as R42 says. -/
  cs : s.csState = csFor s.fsm s.pos
  /-- `poll_cnt` never exceeds POLL_BUDGET (R28). -/
  poll_le : s.pollCnt.toNat ≤ s.config.pollBudget
  /-- `ci` never exceeds `total_chunks` (R25). -/
  ci_le : s.ci.toNat ≤ s.totalChunks.toNat
  /-- The position's local variables are in range. -/
  locals : posLocals s s.pos
  /-- `completed_count` is 0 while idle (R27). -/
  idle_count : s.busy = false → s.completedCount = 0
  /-- The request held is consistent (R24 to R27). -/
  request : s.busy = true → RequestInv s

/-! ### Chip-select events in the trace, and the controller's mode -/

/-- How many chip-select events of a level the trace holds. -/
def csCount (level : Bool) (t : List Event) : Nat := t.count (.cs level)

/-- The trace holds one more assertion than deassertions exactly while chip-select is asserted. -/
def csBalanced (s : State) : Prop :=
  csCount s.config.csAssertLevel s.trace =
    csCount (!s.config.csAssertLevel) s.trace +
      (match s.csState with | .asserted => 1 | .deasserted => 0)

/-- Positions between the setting of a kick's mode bits and their clearing (R159). -/
def modeOn (s : State) : Bool :=
  decide (s.fsm = .waitIrq) ||
  match s.pos with
  | .sStart | .poll | .cMode _ | .acceptRespond | .isrClear => true
  | .none | .csAssert | .wOpcode | .wData _ | .wMblen | .sMode | .readback _ _ | .finishCs
  | .finishRespond | .abortCs _ | .abortRespond _ | .isrStatus | .finishAsyncCs
  | .finishAsyncEmit | .abortAsyncCs | .abortAsyncEmit => false

/-- Under the reference controller: outside a kick the mode bits are clear, and within one only the
chunk's own are set (R308). -/
def modeBitsOk (s : State) : Prop :=
  match s.controller with
  | .oracle => True
  | .reference c =>
    c.ctrl &&& (s.config.mbEn ||| s.config.duplexEn) &&&
      ~~~ (if modeOn s then s.chunk.ctrlMask else 0) = 0

/-- The `d` data-phase bytes a full-duplex chunk that stages `txd` puts on the wire: the staged bytes
and then zeros, but in MSB-first mode the zeros of a partial last word come before its bytes (R83,
R218). -/
def fdWireData (ord : BitOrder) (txd : List Byte) (d : Nat) : List Byte :=
  let full := 4 * (txd.length / 4)
  let k := min 4 (d - full)
  match ord with
  | .lsbFirst => txd ++ List.replicate (d - txd.length) 0
  | .msbFirst =>
    txd.take full ++ List.replicate (k - txd.length % 4) 0 ++ txd.drop full ++
      List.replicate (d - full - k) 0

/-- The bytes a chunk puts on the wire: its opcode bytes, then the bytes it stages, or in a receive
the fill bytes (R82 to R85, R87). -/
def wireBytes (cfg : Config) (ord : BitOrder) (c : Chunk) : List Byte :=
  c.op ++
    match c.dir with
    | .tx => c.txd
    | .rx => List.replicate c.rxN cfg.rxFill
    | .fd => fdWireData ord c.txd (c.dataBits / 8)

/-- The next input is no reset. -/
def noReset (s : State) : Prop := s.inputs.head? ≠ some .reset

end Sys2Proof.Machine
end

