-- ==== Sys2Proof/Certificates/Slice0/Obligations.lean ====
section
/-! DEFINITION. The statements for the provers, from the numbered rules of the spec. Where a
statement runs the block alone it does so from a state whose input stream is used up, so that
every step is the block's own (notes/assumptions/6.md). -/

open Sys2Proof Sys2Proof.Machine

/-! ### Encoding and the request port -/

/-- Decoding the record of a well-formed command gives the command back, operands included
(R101, R103, R105, R106). -/
def Obligations.EncodeThenDecode : Prop :=
  ∀ i : Instr, i.wf = true → decode (encode i) = .ok i

/-- The other direction: a decoded command is well formed, encodes to the same command word, and
its encoding is a well-formed record (R101, R106). -/
def Obligations.DecodedWordIsReencoded : Prop :=
  ∀ (r : Record) (i : Instr), decode r = .ok i →
    i.wf = true ∧ (encode i).cw = r.cw ∧ (encode i).wf = true

/-- A well-formed record whose command word matches a row of the opcode table decodes to that row's
command, with the operands of the record: command byte j from `CMDB[8j+7 : 8j]` for j below CMDLEN,
the other fields whole (R101, R103, R105, R106). -/
def Obligations.TableRowDecodesToItsCommand : Prop :=
  ∀ (r : Record) (row : Op × Word × Word), r.wf = true → row ∈ opcodeRows →
    matchesRow r.cw row = true → ∃ i, decode r = .ok i ∧ i.op = row.1 ∧ carriesOperands r i

/-- A command word that matches no row is answered `InvalidParameter` with no other event and no
state change (R107). -/
def Obligations.IllegalWordIsInvalidParameter : Prop :=
  ∀ (s : State) (r : Record) (rest : List Input), s.inputs = .command r :: rest → r.wf = true →
    (∀ row ∈ opcodeRows, matchesRow r.cw row = false) →
    step s =
      .next { s with inputs := rest, trace := s.trace ++ [.respond .invalidParameter []] }

/-- Words written out from R106's patterns decode to the commands they stand for. -/
def Obligations.SampleWordsDecode : Prop :=
  decodeTableWord 32 0x00000081 = some (.configure .lsbFirst 0) ∧
  decodeTableWord 32 0x00000002 = some (.registerCallback 0 0) ∧
  decodeTableWord 32 0x00000003 = some (.send []) ∧
  decodeTableWord 32 0x00000024 = some (.receive [0, 0] 0) ∧
  decodeTableWord 32 0x00000045 = some (.sendRecv [0, 0, 0, 0] 0) ∧
  decodeTableWord 32 0x00000006 = some (.sendRecvFd [] 0) ∧
  decodeTableWord 32 0x00000007 = some (.sendAsync []) ∧
  decodeTableWord 32 0x00000018 = some (.sendRecvAsync [0] 0) ∧
  decodeTableWord 32 0x00000054 = none ∧
  decodeTableWord 32 0x00000103 = none ∧
  decodeTableWord 32 0x00000083 = none ∧
  decodeTableWord 32 0x00000009 = none

/-- A record whose send bytes are not TXLEN many stops the model (R100, R275; the fault rather than a
refusal is notes/assumptions/11.md). -/
def Obligations.IllFormedRecordStops : Prop :=
  ∀ (s : State) (r : Record) (rest : List Input), s.inputs = .command r :: rest →
    r.tx.length ≠ r.txlen.toNat → step s = .fault .illFormedRecord

/-- A step whose next input is a request record runs the decoded command on the state whose input
stream has moved on; nothing else happens around it. The input stream is the model's own
(notes/assumptions/6.md). -/
def Obligations.StepRunsDecodedCommand : Prop :=
  ∀ (s : State) (r : Record) (rest : List Input) (i : Instr), s.inputs = .command r :: rest →
    decode r = .ok i → step s = exec i { s with inputs := rest }

/-! ### The codec -/

/-- `pack_word` is the sum of R130: byte j of k at bit `8·(k−1−j)` in MSB-first mode and at bit
`8·j` in LSB-first mode, and the bits above `8k` are 0. Outside 1 to 4 bytes it has no value, and
the engine's step that needs one stops with `CODEC_DOMAIN` (R131). -/
def Obligations.PackWordPlacesBytes : Prop :=
  (∀ (c : Config) (b : List Byte), 1 ≤ b.length → b.length ≤ 4 →
    (∃ w, packWord c b .msbFirst = some w ∧ w.toNat < 2 ^ (8 * b.length) ∧
      w.toNat = ((List.range b.length).map fun j =>
        (b.getD j 0).toNat * 2 ^ (8 * (b.length - 1 - j))).sum) ∧
    (∃ w, packWord c b .lsbFirst = some w ∧ w.toNat < 2 ^ (8 * b.length) ∧
      w.toNat = ((List.range b.length).map fun j => (b.getD j 0).toNat * 2 ^ (8 * j)).sum)) ∧
  (∀ (c : Config) (b : List Byte) (ord : BitOrder),
    packWord c b ord = none ↔ b.length = 0 ∨ 4 < b.length) ∧
  ∀ s : State, 4 < s.chunk.op.length → stepOpcode s = .fault .codecDomain

/-- `unpack_word` reads byte j of k at bit `8·(k−1−j)` in MSB-first mode and at bit `8·j` in
LSB-first mode, so the bits above the populated bytes are ignored; it has no value for k outside
1 to 4 (R132). -/
def Obligations.UnpackWordReadsBytes : Prop :=
  ∀ (c : Config) (w : Word) (k : Nat) (ord : BitOrder),
    (1 ≤ k → k ≤ 4 →
      ∃ b, unpackWord c w k ord = some b ∧ b.length = k ∧
        ∀ j, j < k → (b.getD j 0).toNat =
          w.toNat / 2 ^ (8 * (match ord with | .msbFirst => k - 1 - j | .lsbFirst => j)) % 256) ∧
    (k = 0 ∨ 4 < k → unpackWord c w k ord = none)

/-- The round-trip laws of the codec (R136), and the mirror law of the two bit orders: LSB-first
packing is MSB-first packing of the reversed bytes, and one byte packs alike in both modes
(R137). -/
def Obligations.CodecRoundTrips : Prop :=
  (∀ (c : Config) (b : List Byte) (ord : BitOrder),
    (1 ≤ b.length → b.length ≤ 4 →
      ∃ w, packWord c b ord = some w ∧ unpackWord c w b.length ord = some b) ∧
    (b.length ≤ 32 →
      ∃ ws, packSlots c b ord = some ws ∧ unpackSlots c ws b.length ord = some b) ∧
    ∀ m, b.length ≤ 32 → ceilDiv b.length 4 ≤ m →
      ∃ ws, stage c b ord m = some ws ∧ unpackSlots c ws b.length ord = some b) ∧
  (∀ (c : Config) (b : List Byte), packWord c b .lsbFirst = packWord c b.reverse .msbFirst) ∧
  ∀ (c : Config) (x : Byte), packWord c [x] .lsbFirst = packWord c [x] .msbFirst

/-- `stage` is the packed words followed by zero words up to `m` words; the engine uses 8 for
half-duplex send kicks and 4 for full-duplex kicks, and the staged bytes fit (R134). -/
def Obligations.StageIsZeroPadded : Prop :=
  (∀ (c : Config) (b : List Byte) (ord : BitOrder) (m : Nat),
    b.length ≤ 32 → ceilDiv b.length 4 ≤ m →
    ∃ ps ws, packSlots c b ord = some ps ∧ ps.length = ceilDiv b.length 4 ∧
      stage c b ord m = some ws ∧ ws.length = m ∧ ws.take (ceilDiv b.length 4) = ps ∧
      ∀ j, ceilDiv b.length 4 ≤ j → j < m → ws[j]? = some 0) ∧
  ∀ (c : Config) (tx : List Byte) (rl i : Nat),
    (hdSendChunk c tx tx.length i).stageM = 8 ∧
    ceilDiv (hdSendChunk c tx tx.length i).txd.length 4 ≤ 8 ∧
    (fdChunkAt c tx tx.length rl i).stageM = 4 ∧
    ceilDiv (fdChunkAt c tx tx.length rl i).txd.length 4 ≤ 4

/-! ### The chunk plans -/

/-- `hd_send_plan(N)` has `ceil(N/28)` chunks (R183). Over them the concatenation of opcode and data
bytes is the payload, each chunk carries at most 4 and 24 bytes, and slots 6 and 7 are written 0
(R181). Every kicked chunk's length fields are 8 times the bytes it carries, it carries an opcode
byte, writes 8 slots, receives nothing and sets MB_EN alone (R180, R191). -/
def Obligations.SendPlanCarriesPayload : Prop :=
  ∀ (c : Config) (tx : List Byte),
    hdSendCount c tx.length = ceilDiv tx.length 28 ∧
    ((List.range (hdSendCount c tx.length)).flatMap fun i =>
      (hdSendChunk c tx tx.length i).op ++ (hdSendChunk c tx tx.length i).txd) = tx ∧
    (∀ i, (hdSendChunk c tx tx.length i).op.length ≤ 4 ∧
      (hdSendChunk c tx tx.length i).txd.length ≤ 24 ∧
      ∀ ord, slotWord c (hdSendChunk c tx tx.length i) ord 6 = some 0 ∧
        slotWord c (hdSendChunk c tx tx.length i) ord 7 = some 0) ∧
    ∀ i, i < hdSendCount c tx.length →
      (hdSendChunk c tx tx.length i).cmdBits = 8 * (hdSendChunk c tx tx.length i).op.length ∧
      (hdSendChunk c tx tx.length i).dataBits = 8 * (hdSendChunk c tx tx.length i).txd.length ∧
      1 ≤ (hdSendChunk c tx tx.length i).op.length ∧
      (hdSendChunk c tx tx.length i).stageM = 8 ∧ (hdSendChunk c tx tx.length i).dir = .tx ∧
      (hdSendChunk c tx tx.length i).rxN = 0 ∧ (hdSendChunk c tx tx.length i).ctrlMask = c.mbEn

/-- The receive ranges of `hd_recv_plan(cmd, N, dst0)` tile `[dst0, dst0+N)` in order, only chunk 0
carries the command, and without command bytes chunk 0 uses the fake opcode too (R185). Every
chunk's length fields are 8 times its opcode and its received bytes, it writes no slot, reads back
from slot 0 and sets MB_EN alone (R184, R186, R191). -/
def Obligations.ReceivePlanTiles : Prop :=
  ∀ (c : Config) (cmd : List Byte) (n dst0 : Nat),
    hdRecvCount c n = ceilDiv n 32 ∧
    ((List.range (hdRecvCount c n)).map fun i => (hdRecvChunk c cmd n dst0 i).rxN).sum = n ∧
    (hdRecvChunk c cmd n dst0 0).rxDst = dst0 ∧
    (∀ i, i + 1 < hdRecvCount c n →
      (hdRecvChunk c cmd n dst0 (i + 1)).rxDst =
        (hdRecvChunk c cmd n dst0 i).rxDst + (hdRecvChunk c cmd n dst0 i).rxN) ∧
    (hdRecvChunk c cmd n dst0 0).op = cmd ∧
    (∀ i, 0 < i → (hdRecvChunk c cmd n dst0 i).op = []) ∧
    (∀ ord, cmd = [] → opcodeWord c (hdRecvChunk c cmd n dst0 0) ord = some 0) ∧
    ∀ i, (hdRecvChunk c cmd n dst0 i).cmdBits = 8 * (hdRecvChunk c cmd n dst0 i).op.length ∧
      (hdRecvChunk c cmd n dst0 i).dataBits = 8 * (hdRecvChunk c cmd n dst0 i).rxN ∧
      (hdRecvChunk c cmd n dst0 i).rxN ≤ 32 ∧
      (hdRecvChunk c cmd n dst0 i).dir = .rx ∧ (hdRecvChunk c cmd n dst0 i).txd = [] ∧
      (hdRecvChunk c cmd n dst0 i).stageM = 0 ∧ (hdRecvChunk c cmd n dst0 i).rxSlot0 = 0 ∧
      (hdRecvChunk c cmd n dst0 i).ctrlMask = c.mbEn

/-- Iteration i of the loop is kicked exactly when it has bytes: those are the first `total_chunks`
iterations, and at most one, the last, is skipped (R211). -/
def Obligations.FullDuplexSkipsOnlyTheLast : Prop :=
  ∀ (c : Config) (tl rl : Nat),
    (∀ i, 0 < fdBytes c tl i + fdBytes c rl i ↔ i < fdCount c tl rl) ∧
    fdCount c tl rl ≤ fdLoopCount c tl rl ∧ fdLoopCount c tl rl ≤ fdCount c tl rl + 1

/-- Over the chunks of `fd_plan` the opcode and data bytes concatenate to the payload, and the
receive ranges tile `[0, RL)` in order (R213). -/
def Obligations.FullDuplexPlanCarriesPayload : Prop :=
  ∀ (c : Config) (tx : List Byte) (rl : Nat),
    ((List.range (fdCount c tx.length rl)).flatMap fun i =>
      (fdChunkAt c tx tx.length rl i).op ++ (fdChunkAt c tx tx.length rl i).txd) = tx ∧
    ((List.range (fdCount c tx.length rl)).map fun i =>
      (fdChunkAt c tx tx.length rl i).rxN).sum = rl ∧
    (fdChunkAt c tx tx.length rl 0).rxDst = 0 ∧
    ∀ i, 0 < (fdChunkAt c tx tx.length rl (i + 1)).rxN →
      (fdChunkAt c tx tx.length rl (i + 1)).rxDst =
        (fdChunkAt c tx tx.length rl i).rxDst + (fdChunkAt c tx tx.length rl i).rxN

/-- A full-duplex kick has at most 16 bus bytes, stages at most 12 bytes, writes send slot 3 with 0
and no slot above it, and reads back at most 4 slots from DATA(4) on (R216, R217). Its length
fields are 8 times its opcode bytes and 8 times the bus bytes after them, its direction is FD, and
it sets MB_EN and DUPLEX_EN (R212). -/
def Obligations.FullDuplexKickFitsTheBanks : Prop :=
  ∀ (c : Config) (tx : List Byte) (rl i : Nat) (ord : BitOrder),
    fdBusBytes c tx.length rl i ≤ 16 ∧
    (fdChunkAt c tx tx.length rl i).txd.length ≤ 12 ∧
    slotWord c (fdChunkAt c tx tx.length rl i) ord 3 = some 0 ∧
    (fdChunkAt c tx tx.length rl i).stageM = 4 ∧
    readbackCount c (fdChunkAt c tx tx.length rl i) ≤ 4 ∧
    (fdChunkAt c tx tx.length rl i).rxSlot0 = 4 ∧
    (fdChunkAt c tx tx.length rl i).cmdBits = 8 * (fdChunkAt c tx tx.length rl i).op.length ∧
    (fdChunkAt c tx tx.length rl i).dataBits =
      8 * (fdBusBytes c tx.length rl i - (fdChunkAt c tx tx.length rl i).op.length) ∧
    (fdChunkAt c tx tx.length rl i).cmdBits + (fdChunkAt c tx tx.length rl i).dataBits =
      8 * fdBusBytes c tx.length rl i ∧
    (fdChunkAt c tx tx.length rl i).dir = .fd ∧
    (fdChunkAt c tx tx.length rl i).ctrlMask = c.mbEn ||| c.duplexEn

/-! ### Session commands -/

/-- CONFIGURE on an idle block sets the bit order and the opaque configuration and responds OK;
nothing else changes (R260). -/
def Obligations.ConfigureCompletes : Prop :=
  ∀ (ord : BitOrder) (cfg : Word) (s : State), s.busy = false →
    exec (.configure ord cfg) s =
      .next { s with
        bitOrder := ord
        cfgOpaque := cfg
        irqMask := false
        trace := s.trace ++ [.respond .ok []] }

/-- REGISTER_CALLBACK with a nonzero handle on an idle block registers the callback and responds
OK; nothing else changes (R262). -/
def Obligations.RegisterCallbackCompletes : Prop :=
  ∀ (cbh udata : Word) (s : State), s.busy = false → cbh ≠ 0 →
    exec (.registerCallback cbh udata) s =
      .next { s with
        cbValid := true
        cbHandle := cbh
        cbUdata := udata
        irqMask := false
        trace := s.trace ++ [.respond .ok []] }

/-! ### Transfer commands -/

/-- SEND on an idle block, with at least one byte, latches its context in one step without an event
and starts to run; nothing else changes (R153, R187; the receive length it does not use is the
model's notes/assumptions/30.md). -/
def Obligations.SendCompletes : Prop :=
  ∀ (tx : List Byte) (s : State), s.busy = false → 1 ≤ tx.length → tx.length < 2 ^ 32 →
    exec (.send tx) s =
      .next { s with
        busy := true
        ctx :=
          { reqOp := .send, ord := s.bitOrder, cmd := [], cmdLen := 0, tx := tx,
            txLen := BitVec.ofNat 32 tx.length, rxLen := 0, rxBuf := [], rxBase := 0 }
        ci := 0
        totalChunks := BitVec.ofNat 32 (hdSendCount s.config tx.length)
        completedCount := 0
        fsm := .run
        pos := .csAssert
        irqMask := false }

/-- RECEIVE on an idle block, with at least one byte to receive, latches its context (R153, R188;
the send bytes it does not use are the model's notes/assumptions/30.md). -/
def Obligations.ReceiveCompletes : Prop :=
  ∀ (cmd : List Byte) (rxLen : Word) (s : State), s.busy = false → cmd.length ≤ 4 →
    1 ≤ rxLen.toNat →
    exec (.receive cmd rxLen) s =
      .next { s with
        busy := true
        ctx :=
          { reqOp := .receive, ord := s.bitOrder, cmd := cmd,
            cmdLen := BitVec.ofNat 3 cmd.length, tx := [], txLen := 0, rxLen := rxLen,
            rxBuf := List.replicate rxLen.toNat none, rxBase := 0 }
        ci := 0
        totalChunks := BitVec.ofNat 32 (hdRecvCount s.config rxLen.toNat)
        completedCount := 0
        fsm := .run
        pos := .csAssert
        irqMask := false }

/-- SEND_RECV on an idle block, with RXLEN above CMDLEN, latches its context: the command
positions count in the buffer, and the data start after them (R153, R190; the send bytes it does
not use are the model's notes/assumptions/30.md). -/
def Obligations.SendRecvCompletes : Prop :=
  ∀ (cmd : List Byte) (rxLen : Word) (s : State), s.busy = false → cmd.length ≤ 4 →
    cmd.length < rxLen.toNat →
    exec (.sendRecv cmd rxLen) s =
      .next { s with
        busy := true
        ctx :=
          { reqOp := .sendRecv, ord := s.bitOrder, cmd := cmd,
            cmdLen := BitVec.ofNat 3 cmd.length, tx := [], txLen := 0, rxLen := rxLen,
            rxBuf := List.replicate rxLen.toNat none, rxBase := BitVec.ofNat 32 cmd.length }
        ci := 0
        totalChunks := BitVec.ofNat 32 (hdRecvCount s.config (rxLen.toNat - cmd.length))
        completedCount := 0
        fsm := .run
        pos := .csAssert
        irqMask := false }

/-- SEND_RECV_FD on an idle block, with at least one byte to send or receive, latches its context
(R153, R214). -/
def Obligations.SendRecvFdCompletes : Prop :=
  ∀ (tx : List Byte) (rxLen : Word) (s : State), s.busy = false → tx.length < 2 ^ 32 →
    1 ≤ tx.length + rxLen.toNat →
    exec (.sendRecvFd tx rxLen) s =
      .next { s with
        busy := true
        ctx :=
          { reqOp := .sendRecvFd, ord := s.bitOrder, cmd := [], cmdLen := 0, tx := tx,
            txLen := BitVec.ofNat 32 tx.length, rxLen := rxLen,
            rxBuf := List.replicate rxLen.toNat none, rxBase := 0 }
        ci := 0
        totalChunks := BitVec.ofNat 32 (fdCount s.config tx.length rxLen.toNat)
        completedCount := 0
        fsm := .run
        pos := .csAssert
        irqMask := false }

/-- SEND_ASYNC on an idle block with a registered callback latches its context and clears
`irq_pending` (R153, R230, R234; the receive length it does not use is the model's
notes/assumptions/30.md). -/
def Obligations.SendAsyncCompletes : Prop :=
  ∀ (tx : List Byte) (s : State), s.busy = false → s.cbValid = true → 1 ≤ tx.length →
    tx.length < 2 ^ 32 →
    exec (.sendAsync tx) s =
      .next { s with
        busy := true
        ctx :=
          { reqOp := .sendAsync, ord := s.bitOrder, cmd := [], cmdLen := 0, tx := tx,
            txLen := BitVec.ofNat 32 tx.length, rxLen := 0, rxBuf := [], rxBase := 0 }
        ci := 0
        totalChunks := BitVec.ofNat 32 (hdSendCount s.config tx.length)
        completedCount := 0
        fsm := .run
        pos := .csAssert
        irqPending := false
        irqMask := false }

/-- SEND_RECV_ASYNC on an idle block with a registered callback latches its context and clears
`irq_pending` (R153, R230, R236; the send bytes it does not use are the model's
notes/assumptions/30.md). -/
def Obligations.SendRecvAsyncCompletes : Prop :=
  ∀ (cmd : List Byte) (rxLen : Word) (s : State), s.busy = false → s.cbValid = true →
    cmd.length ≤ 4 → cmd.length < rxLen.toNat →
    exec (.sendRecvAsync cmd rxLen) s =
      .next { s with
        busy := true
        ctx :=
          { reqOp := .sendRecvAsync, ord := s.bitOrder, cmd := cmd,
            cmdLen := BitVec.ofNat 3 cmd.length, tx := [], txLen := 0, rxLen := rxLen,
            rxBuf := List.replicate rxLen.toNat none, rxBase := BitVec.ofNat 32 cmd.length }
        ci := 0
        totalChunks := BitVec.ofNat 32 (hdRecvCount s.config (rxLen.toNat - cmd.length))
        completedCount := 0
        fsm := .run
        pos := .csAssert
        irqPending := false
        irqMask := false }

/-- Every command that meets its other conditions is refused with `Busy` while a request holds the
controller: one response, no state change (R151, R169). -/
def Obligations.BusyBlockRefuses : Prop :=
  ∀ (i : Instr) (s : State), i.wf = true → admissibleOperands i = true →
    callbackCondition i s.cbValid = true → s.busy = true → s.irqMask = false →
    exec i s = .next { s with trace := s.trace ++ [.respond .busy []] }

/-- A command that fails its operand condition or lacks its callback is answered
`InvalidParameter`, one response and no state change, busy or not (R150, R271, R278). -/
def Obligations.FailedCheckIsInvalidParameter : Prop :=
  ∀ (i : Instr) (s : State), i.wf = true →
    admissibleOperands i = false ∨ callbackCondition i s.cbValid = false →
    exec i s = .next { s with trace := s.trace ++ [.respond .invalidParameter []] }

/-- What no command changes at the request port: the poll counter, the chip-select, the
configuration, the controller and the environment's data; a command emits at most one event; only
CONFIGURE writes the session configuration and only REGISTER_CALLBACK the callback; neither of the
two touches the request registers; only an async command writes `irq_pending`. -/
def Obligations.CommandFrame : Prop :=
  ∀ (i : Instr) (s t : State), exec i s = .next t →
    t.pollCnt = s.pollCnt ∧ t.csState = s.csState ∧ t.config = s.config ∧
    t.controller = s.controller ∧ t.inputs = s.inputs ∧ t.answers = s.answers ∧
    t.freeCount = s.freeCount ∧
    (∃ es : List Event, es.length ≤ 1 ∧ t.trace = s.trace ++ es) ∧
    (i.op ≠ .configure → t.bitOrder = s.bitOrder ∧ t.cfgOpaque = s.cfgOpaque) ∧
    (i.op ≠ .registerCallback →
      t.cbValid = s.cbValid ∧ t.cbHandle = s.cbHandle ∧ t.cbUdata = s.cbUdata) ∧
    (transferOp i.op = false →
      t.busy = s.busy ∧ t.ctx = s.ctx ∧ t.ci = s.ci ∧ t.totalChunks = s.totalChunks ∧
      t.completedCount = s.completedCount ∧ t.fsm = s.fsm ∧ t.pos = s.pos) ∧
    (i.op.isAsync = false → t.irqPending = s.irqPending)

/-! ### The trace and chip-select -/

/-- Each step emits at most one event, after the events already emitted (R60). -/
def Obligations.StepEmitsAtMostOneEvent : Prop :=
  ∀ s t : State, step s = .next t →
    ∃ es : List Event, es.length ≤ 1 ∧ t.trace = s.trace ++ es

/-- At every step but a reset, a change of `cs_state` emits `CS(level)` of the new state, and a step
that does not change it emits no `CS` (R41, R301). -/
def Obligations.ChipSelectEventsMarkChanges : Prop :=
  ∀ s t : State, step s = .next t → noReset s →
    (t.csState ≠ s.csState → t.trace = s.trace ++ [.cs (csLevel s.config t.csState)]) ∧
    (t.csState = s.csState → ∀ l, csCount l t.trace = csCount l s.trace)

/-- Every step but a reset keeps the balance of the trace: as many chip-select assertions as
deassertions while it is deasserted, one more while it is asserted (R173). -/
def Obligations.ChipSelectStaysBalanced : Prop :=
  ∀ s t : State, step s = .next t → noReset s → csBalanced s → csBalanced t

/-! ### Kick, poll and readback -/

/-- `program(c)` emits its events in the order of R156, one a step, and then the interrupt
procedure waits, `start_async` is about to respond, or the poll starts. -/
def Obligations.ProgramEmitsInOrder : Prop :=
  ∀ s : State, s.inputs = [] → s.fsm = .run ∨ s.fsm = .isr → s.pos = .wOpcode →
    ChunkInDomain s.config s.chunk →
    ∃ t, runSteps (4 + s.chunk.stageM) s = .next t ∧
      t.trace = s.trace ++ programEvents s.config s.ctx.ord s.chunk ∧
      t.ctx = s.ctx ∧ t.ci = s.ci ∧ t.busy = s.busy ∧ t.answers = s.answers ∧
      t.csState = s.csState ∧ t.completedCount = s.completedCount ∧
      (s.fsm = .isr → t.fsm = .waitIrq ∧ t.pos = .none) ∧
      (s.fsm = .run → s.ctx.reqOp.isAsync = true → t.fsm = .run ∧ t.pos = .acceptRespond) ∧
      (s.fsm = .run → s.ctx.reqOp.isAsync = false →
        t.fsm = .run ∧ t.pos = .poll)

/-- The poll after a polling request's START counts its status reads from 0: it makes at least one
and at most POLL_BUDGET of them, whatever is answered, and returns the first answer with BUSY
clear, or TIMEOUT after POLL_BUDGET answers with BUSY set (R161). -/
def Obligations.PollIsBounded : Prop :=
  ∀ s : State, s.inputs = [] → s.fsm = .run → s.ctx.reqOp.isAsync = false → s.pos = .sStart →
    ∃ (vs : List Word) (t : State), 1 ≤ vs.length ∧ vs.length ≤ s.config.pollBudget ∧
      runSteps (1 + vs.length) s = .next t ∧
      t.trace = s.trace ++ [.setBits .ctrl s.config.start] ++ statusEvents vs ∧
      t.pollCnt.toNat = vs.length ∧
      ((∃ v, t.pos = .cMode (some v) ∧ vs.getLast? = some v ∧ statusBusy s.config v = false ∧
          ∀ u ∈ vs.dropLast, statusBusy s.config u = true) ∨
        (t.pos = .cMode none ∧ vs.length = s.config.pollBudget ∧
          ∀ u ∈ vs, statusBusy s.config u = true)) ∧
      (s.controller = .oracle → vs.length ≤ s.answers.length →
        vs = s.answers.take vs.length ∧ t.answers = s.answers.drop vs.length)

/-- After a polled kick the mode bits of the chunk are cleared on every outcome, and the outcome is
classified from what the poll returned: TIMEOUT and error bits abort, any other value goes on
(R159, R163, R164; where `ci` advances is the model's notes/assumptions/8.md and 9.md). -/
def Obligations.KickIsClearedThenClassified : Prop :=
  ∀ (s : State) (p : Option Word), s.inputs = [] → s.fsm = .run → s.pos = .cMode p →
    ∃ t, step s = .next t ∧ t.trace = s.trace ++ [.clearBits .ctrl s.chunk.ctrlMask] ∧
      t.fsm = .run ∧
      (p = none → t.pos = .abortCs .hardwareTimeout ∧ t.ci = s.ci) ∧
      (∀ v, p = some v → statusErr s.config v = true →
        t.pos = .abortCs .unclassifiedError ∧ t.ci = s.ci) ∧
      (∀ v, p = some v → statusErr s.config v = false →
        (0 < s.chunk.rxN → t.pos = .readback 0 [] ∧ t.ci = s.ci) ∧
        (s.chunk.rxN = 0 → t.ci = s.ci + 1 ∧
          t.pos = if (s.ci + 1).toNat < s.totalChunks.toNat then .wOpcode else .finishCs))

/-- `readback(c)` reads `ceil(rx_n/4)` slots in ascending order and decodes them into `rx_buf`
(R160). -/
def Obligations.ReadbackDecodesSlots : Prop :=
  ∀ s : State, s.inputs = [] → s.fsm = .run ∨ s.fsm = .isr → s.pos = .readback 0 [] →
    ChunkInDomain s.config s.chunk → 0 < s.chunk.rxN →
    ∃ (ws : List Word) (bytes : List Byte) (t : State),
      ws.length = readbackCount s.config s.chunk ∧ runSteps ws.length s = .next t ∧
      t.trace = s.trace ++ readbackEvents s.chunk 0 ws ∧
      unpackSlots s.config ws s.chunk.rxN s.ctx.ord = some bytes ∧ bytes.length = s.chunk.rxN ∧
      t.ctx = { s.ctx with rxBuf := fillRx s.ctx.rxBuf s.chunk.rxDst bytes } ∧
      (s.controller = .oracle → ws.length ≤ s.answers.length →
        ws = s.answers.take ws.length ∧ t.answers = s.answers.drop ws.length)

/-! ### The ends of a request -/

/-- `finish_poll` and `abort_poll(st)` deassert chip-select, then release the controller and respond
with OK or the error and the request's output, in two steps; what the context holds afterwards is
open (R24), and nothing else changes (R167, R168). -/
def Obligations.PollEndDeassertsThenResponds : Prop :=
  ∀ (s : State) (st : Status), s.inputs = [] → s.fsm = .run → s.csState = .asserted →
    (s.pos = .finishCs ∧ st = .ok) ∨ s.pos = .abortCs st →
    ∃ x : Context, runSteps 2 s =
      .next { s with
        ctx := x
        csState := .deasserted
        busy := false
        fsm := .idle
        pos := .none
        trace := s.trace ++
          [.cs (!s.config.csAssertLevel), .respond st (outOf s.ctx s.ctx.rxBuf)] }

/-- `finish_async` and `abort_async` deassert chip-select, then clear the counter, release the
controller and emit FINISHED or ERROR to the registered callback, in two steps; what the context
holds afterwards is open (R24), and nothing else changes (R242, R244). -/
def Obligations.AsyncEndEmitsOnce : Prop :=
  ∀ (s : State) (code : EventCode), s.inputs = [] → s.fsm = .isr → s.csState = .asserted →
    s.pos = (match code with | .finished => Pos.finishAsyncCs | .error => Pos.abortAsyncCs) →
    ∃ x : Context, runSteps 2 s =
      .next { s with
        ctx := x
        csState := .deasserted
        completedCount := 0
        busy := false
        fsm := .idle
        pos := .none
        trace := s.trace ++
          [.cs (!s.config.csAssertLevel),
           .emit s.cbHandle code s.cbUdata (outOf s.ctx s.ctx.rxBuf)] }

/-! ### The async path -/

/-- `start_async` asserts chip-select and programs chunk 0, one event a step, and the step of its
response enters WAIT_IRQ (R231). -/
def Obligations.StartAsyncProgramsThenWaits : Prop :=
  ∀ s : State, s.Inv → s.inputs = [] → s.pos = .csAssert → s.ctx.reqOp.isAsync = true →
    ∃ u t, runSteps (5 + s.chunk.stageM) s = .next u ∧ u.fsm = .run ∧
      u.trace = s.trace ++ [.cs s.config.csAssertLevel] ++
        programEvents s.config s.ctx.ord s.chunk ∧
      runSteps (6 + s.chunk.stageM) s = .next t ∧ t.fsm = .waitIrq ∧ t.csState = .asserted ∧
      t.ctx = s.ctx ∧ t.ci = s.ci ∧ t.trace = u.trace ++ [.respond .ok []]

/-- Taking the interrupt is one step that saves nothing and emits nothing (R240, R281). -/
def Obligations.InterruptEntry : Prop :=
  ∀ s : State, s.inputs = [] → s.fsm = .waitIrq → s.irqPending = true → s.irqMask = false →
    step s = .next { s with irqPending := false, fsm := .isr, pos := .isrClear }

/-- The interrupt of a chunk that is not the last, whose status shows no error: the mode bit is
cleared, the status and the chunk's slots are read, the next chunk is programmed, and the block
waits again with both counters advanced (R240). -/
def Obligations.InterruptProgramsNextChunk : Prop :=
  ∀ (s : State) (v : Word) (ws rest : List Word), s.Inv → s.inputs = [] → s.fsm = .isr →
    s.pos = .isrClear → s.controller = .oracle → s.answers = v :: ws ++ rest →
    statusErr s.config v = false → ws.length = readbackCount s.config s.chunk →
    s.ci.toNat + 1 < s.totalChunks.toNat →
    ∃ n t, runSteps n s = .next t ∧ t.fsm = .waitIrq ∧ t.csState = .asserted ∧
      t.ci = s.ci + 1 ∧ t.completedCount = s.completedCount + 1 ∧ t.answers = rest ∧
      t.ctx = { s.ctx with rxBuf := readbackBuf s.config s.ctx.ord s.chunk ws s.ctx.rxBuf } ∧
      t.trace = s.trace ++ [.clearBits .ctrl s.config.mbEn, .read .status v] ++
        readbackEvents s.chunk 0 ws ++
        programEvents s.config s.ctx.ord (chunkOf s.config s.ctx (s.ci.toNat + 1))

/-- The interrupt of the last chunk, whose status shows no error, ends the request with FINISHED
(R240, R242). -/
def Obligations.LastInterruptFinishes : Prop :=
  ∀ (s : State) (v : Word) (ws rest : List Word), s.Inv → s.inputs = [] → s.fsm = .isr →
    s.pos = .isrClear → s.controller = .oracle → s.answers = v :: ws ++ rest →
    statusErr s.config v = false → ws.length = readbackCount s.config s.chunk →
    s.ci.toNat + 1 = s.totalChunks.toNat →
    ∃ n t, runSteps n s = .next t ∧ t.fsm = .idle ∧ t.busy = false ∧ t.completedCount = 0 ∧
      t.csState = .deasserted ∧ t.ci = s.ci ∧
      t.trace = s.trace ++ [.clearBits .ctrl s.config.mbEn, .read .status v] ++
        readbackEvents s.chunk 0 ws ++
        [.cs (!s.config.csAssertLevel),
         .emit s.cbHandle .finished s.cbUdata
           (outOf s.ctx (readbackBuf s.config s.ctx.ord s.chunk ws s.ctx.rxBuf))]

/-- An interrupt whose status read shows error bits ends the request with ERROR; no slot is read
and no further chunk is programmed (R240, R244, R274). -/
def Obligations.InterruptErrorAborts : Prop :=
  ∀ (s : State) (v : Word) (rest : List Word), s.Inv → s.inputs = [] → s.fsm = .isr →
    s.pos = .isrClear → s.controller = .oracle → s.answers = v :: rest →
    statusErr s.config v = true →
    ∃ t, runSteps 4 s = .next t ∧ t.fsm = .idle ∧ t.busy = false ∧ t.completedCount = 0 ∧
      t.csState = .deasserted ∧ t.answers = rest ∧
      t.trace = s.trace ++
        [.clearBits .ctrl s.config.mbEn, .read .status v, .cs (!s.config.csAssertLevel),
         .emit s.cbHandle .error s.cbUdata (outOf s.ctx s.ctx.rxBuf)]

/-- A lost interrupt: the block waiting for an interrupt no input brings keeps its state however
many steps it is given (R246; a step of a waiting block is the model's notes/assumptions/7.md). -/
def Obligations.LostInterruptIsStuck : Prop :=
  ∀ (s : State) (n : Nat), s.stuck → runSteps n s = .next s

/-- A pulse of a controller nothing is known of is latched exactly while an async request is in
flight, else discarded; nothing else changes and nothing is emitted (R46, R245). The reference
controller's pulse is the same where it may raise one, which uses that up, and else is nothing. It
may raise one only from the end of a transfer on: a START takes that away, and no other input or
step of the block gives it (R81, notes/assumptions/20.md and 32.md). -/
def Obligations.PulseIsLatchedOrDiscarded : Prop :=
  (∀ (s : State) (rest : List Input), s.inputs = .irqPulse :: rest → s.controller = .oracle →
    step s =
      .next { s with
        inputs := rest
        irqPending :=
          if s.busy = true ∧ (s.ctx.reqOp = .sendAsync ∨ s.ctx.reqOp = .sendRecvAsync) then true
          else s.irqPending }) ∧
  (∀ (s : State) (rest : List Input) (c : RefController), s.inputs = .irqPulse :: rest →
    s.controller = .reference c →
    step s =
      if c.irqReady = true then
        .next { s with
          inputs := rest
          controller := .reference { c with irqReady := false }
          irqPending :=
            if s.busy = true ∧ (s.ctx.reqOp = .sendAsync ∨ s.ctx.reqOp = .sendRecvAsync) then true
            else s.irqPending }
      else .next { s with inputs := rest }) ∧
  (∀ (c : RefController) (cfg : Config) (ord : BitOrder),
    (c.setBits cfg ord .ctrl cfg.start).irqReady = false) ∧
  ∀ (s t : State) (c : RefController), step s = .next t → s.controller = .reference c →
    c.irqReady = false → s.inputs.head? ≠ some .transferEnd ∨ c.kick = none →
    ∃ c', t.controller = .reference c' ∧ c'.irqReady = false

/-- A command waiting while the interrupt can be taken: both orders give the same state after the
two steps (R280; the input stream says which is first, notes/assumptions/6.md). -/
def Obligations.CommandAndInterruptCommute : Prop :=
  ∀ (s : State) (r : Record) (rest : List Input) (i : Instr), s.Inv → decode r = .ok i →
    s.fsm = .waitIrq → s.irqPending = true →
    runSteps 2 { s with inputs := .command r :: .tick :: rest } =
        runSteps 2 { s with inputs := .tick :: .command r :: rest } ∧
      ∃ t, runSteps 2 { s with inputs := .command r :: .tick :: rest } = .next t ∧
        t.fsm = .isr ∧ t.irqPending = false

/-! ### The invariant -/

/-- The reset state meets the invariant, the chip-select balance and the mode-bit condition. -/
def Obligations.ResetMeetsTheInvariant : Prop :=
  State.reset.Inv ∧ csBalanced State.reset ∧ modeBitsOk State.reset

/-- Every step keeps the invariant. -/
def Obligations.StepKeepsTheInvariant : Prop :=
  ∀ s t : State, s.Inv → step s = .next t → t.Inv

/-- From a state that meets the invariant no step makes a codec call outside its domain: the only
stop is an ill-formed request record (R131, R275). -/
def Obligations.OnlyIllFormedRecordsStop : Prop :=
  ∀ s : State, s.Inv →
    (∃ t, step s = .next t) ∨
    (step s = .fault .illFormedRecord ∧
      ∃ r rest, s.inputs = .command r :: rest ∧ r.tx.length ≠ r.txlen.toNat)

/-- While a request holds the controller, no step but a reset changes the session's bit order and
opaque configuration, the registered callback or the request's context, its receive buffer apart
(R22, R24, R261, R262, R310, R76; that the last step keeps the context is
notes/assumptions/31.md). -/
def Obligations.RequestOperandsAreFixedWhileBusy : Prop :=
  ∀ s t : State, s.Inv → step s = .next t → noReset s → s.busy = true →
    t.bitOrder = s.bitOrder ∧ t.cfgOpaque = s.cfgOpaque ∧ t.cbValid = s.cbValid ∧
    t.cbHandle = s.cbHandle ∧ t.cbUdata = s.cbUdata ∧ t.ctx = { s.ctx with rxBuf := t.ctx.rxBuf }

/-- The opaque configuration is never interpreted: two states that differ in it alone take the same
step, and still differ in it alone (R22). -/
def Obligations.OpaqueConfigurationIsNeverRead : Prop :=
  ∀ (s : State) (w : Word),
    (∀ t, step s = .next t →
      ∃ t', step { s with cfgOpaque := w } = .next t' ∧
        { t' with cfgOpaque := 0 } = { t with cfgOpaque := 0 }) ∧
    (∀ f, step s = .fault f ↔ step { s with cfgOpaque := w } = .fault f)

/-- Every polling request ends, whatever the reads answer: chip-select is deasserted, the block is
quiescent, and the last event is a response with OK or a hardware error and, for a receiving
command, RXLEN positions (R162, R167, R168, R171). -/
def Obligations.PollingRequestEnds : Prop :=
  ∀ s : State, s.Inv → s.inputs = [] → s.fsm = .run → s.ctx.reqOp.isAsync = false →
    ∃ n t st buf, runSteps n s = .next t ∧ t.quiescent ∧ t.busy = false ∧
      t.csState = .deasserted ∧ buf.length = s.ctx.rxLen.toNat ∧
      t.trace.getLast? = some (.respond st (outOf s.ctx buf)) ∧
      (st = .ok ∨ st = .hardwareTimeout ∨ st = .unclassifiedError)

/-- A polling request all of whose kicks are answered well runs to `Respond(OK)`: its trace is the
chip-select assertion, the kicks of its plan in order, the deassertion and the response with the
bytes read (R164, R165, R167; that the last kick advances `ci` too is notes/assumptions/9.md). -/
def Obligations.PolledRequestRunsToOk : Prop :=
  ∀ (s : State) (as : List KickAnswers) (rest : List Word), s.Inv → s.inputs = [] →
    s.pos = .csAssert → s.ctx.reqOp.isAsync = false → s.controller = .oracle →
    as.length = s.totalChunks.toNat → allGood s.config s.ctx 0 as →
    s.answers = as.flatMap KickAnswers.all ++ rest →
    ∃ n t, runSteps n s = .next t ∧ t.quiescent ∧ t.busy = false ∧ t.csState = .deasserted ∧
      t.ci = s.totalChunks ∧ t.answers = rest ∧
      t.trace = s.trace ++ [.cs s.config.csAssertLevel] ++ loopEvents s.config s.ctx 0 as ++
        [.cs (!s.config.csAssertLevel),
         .respond .ok (outOf s.ctx (loopBuf s.config s.ctx 0 as s.ctx.rxBuf))]

/-- A polling request whose first kicks are answered well and whose next kick times out or shows
error bits aborts there: the failed kick is the last, the response carries the error and the bytes
received before it (R163, R164, R168, R274). -/
def Obligations.PolledRequestAbortsAtFailure : Prop :=
  ∀ (s : State) (as : List KickAnswers) (bad : KickAnswers) (rest : List Word), s.Inv →
    s.inputs = [] → s.pos = .csAssert → s.ctx.reqOp.isAsync = false → s.controller = .oracle →
    as.length < s.totalChunks.toNat → allGood s.config s.ctx 0 as → bad.bad s.config →
    s.answers = (as ++ [bad]).flatMap KickAnswers.all ++ rest →
    ∃ n t, runSteps n s = .next t ∧ t.quiescent ∧ t.busy = false ∧ t.csState = .deasserted ∧
      t.ci.toNat = as.length ∧ t.answers = rest ∧
      t.trace = s.trace ++ [.cs s.config.csAssertLevel] ++
        loopEvents s.config s.ctx 0 (as ++ [bad]) ++
        [.cs (!s.config.csAssertLevel),
         .respond (classify s.config bad.final)
           (outOf s.ctx (loopBuf s.config s.ctx 0 as s.ctx.rxBuf))]

/-! ### The reference controller -/

/-- Register effects of `W`, `S` and `C` on the reference controller: the written value, `old | m`
and `old & ~m`, and no other register changes (R65). -/
def Obligations.RegisterAccessEffects : Prop :=
  ∀ (c : RefController) (cfg : Config) (ord : BitOrder) (r q : Reg) (v : Word), r ≠ .status →
    ((c.write r v).stored q = if q = r then v else c.stored q) ∧
    ((c.setBits cfg ord r v).stored q = if q = r then c.stored q ||| v else c.stored q) ∧
    ((c.clearBits r v).stored q = if q = r then c.stored q &&& ~~~v else c.stored q)

/-- Under the reference controller a status read shows BUSY exactly while a transfer is in progress.
A transfer begins with START, and with no other step. It stays in progress at every step but one
whose input is its end, and is over after that one (R81; that every START begins a transfer and
that its end is an input are the model's notes/assumptions/16.md and 19.md). -/
def Obligations.BusyShowsTransfer : Prop :=
  (∀ (s : State) (c : RefController), s.controller = .reference c →
    statusBusy s.config (s.readValue .status) = c.kick.isSome) ∧
  (∀ (c : RefController) (cfg : Config) (ord : BitOrder),
    (c.setBits cfg ord .ctrl cfg.start).kick.isSome = true) ∧
  (∀ (s t : State) (c : RefController), step s = .next t → s.controller = .reference c →
    c.kick = none →
    ∃ c', t.controller = .reference c' ∧
      (c'.kick.isSome = true → t.trace = s.trace ++ [.setBits .ctrl s.config.start])) ∧
  (∀ (s t : State) (c : RefController), step s = .next t → s.controller = .reference c →
    c.kick.isSome = true → s.inputs.head? ≠ some .transferEnd →
    ∃ c', t.controller = .reference c' ∧ c'.kick.isSome = true) ∧
  ∀ (s : State) (c : RefController) (rest : List Input), s.controller = .reference c →
    s.inputs = .transferEnd :: rest →
    ∃ t c', step s = .next t ∧ t.controller = .reference c' ∧ c'.kick = none

/-- A half-duplex send kick puts the chunk's bytes on the wire in buffer order, in both modes. From
the programming of any chunk to the end of its transfer the reference controller clocks out the
opcode bytes and then the staged bytes, or in a receive the fill bytes, each byte's bits in the
request's bit order. A full-duplex chunk longer than its send bytes clocks zeros after them, in
MSB-first mode before the bytes of a partial last word. The model's choices here are the log entries
15 (the controller's bit order is the request's), 16 (a START during a transfer replaces it, which
then leaves no bytes), 17 (the kick's lengths and direction are the block's) and 19 (what START
takes, and the transfer's end) (R82 to R85, R87, R218; notes/assumptions/15.md, 16.md, 17.md and
19.md). -/
def Obligations.SendKickWireOrder : Prop :=
  (∀ (g : Config) (k : Kick) (op txd : List Byte), k.dir = .tx → op.length ≤ 4 →
    txd.length ≤ 32 → k.cmdBytes = op.length → k.dataBytes = txd.length →
    (0 < op.length → packWord g op k.ord = some k.opcode) →
    stage g txd k.ord 8 = some k.slots.toList →
    k.cmdWire g ++ k.dataWire g = op ++ txd) ∧
  ∀ (s : State) (c : RefController), s.Inv → s.inputs = [] → s.controller = .reference c →
    s.pos = .wOpcode →
    ∃ t u c', runSteps (4 + s.chunk.stageM) s = .next t ∧
      step { t with inputs := [.transferEnd] } = .next u ∧ u.controller = .reference c' ∧
      c'.kick = none ∧
      c'.wire = c.wire ++ (wireBytes s.config s.ctx.ord s.chunk).flatMap (wireBits s.ctx.ord)

/-- A receive kick stores the data-phase bytes so that reading back the slots gives them in order,
and drops the command-phase bytes; a full-duplex kick stores every bus byte from slot 4 on; a
transmit kick stores nothing (R84, R85, R86). -/
def Obligations.KickStoresReceivedBytes : Prop :=
  ∀ (g : Config) (k : Kick) (data : Vector Word 8) (q : List Byte),
    (k.dir = .rx → q.length = k.cmdBytes + k.dataBytes → k.dataBytes ≤ 32 →
      unpackSlots g (k.storeRx g data q).toList k.dataBytes k.ord = some (q.drop k.cmdBytes) ∧
      ∀ j : Fin 8, ceilDiv k.dataBytes 4 ≤ j.val → (k.storeRx g data q)[j] = data[j]) ∧
    (k.dir = .fd → q.length = k.cmdBytes + k.dataBytes → q.length ≤ 16 →
      unpackSlots g ((k.storeRx g data q).toList.drop 4) q.length k.ord = some q ∧
      ∀ j : Fin 8, j.val < 4 → (k.storeRx g data q)[j] = data[j]) ∧
    (k.dir = .tx → k.storeRx g data q = data)

/-- The mode bits are clear whenever no kick is in progress, and within a kick only the chunk's own
are set: every step but a reset keeps it (R159, R308; the reference controller's control register
is the model's notes/assumptions/14.md). -/
def Obligations.ModeBitsClearOutsideKicks : Prop :=
  ∀ s t : State, s.Inv → modeBitsOk s → noReset s → step s = .next t → modeBitsOk t

/-! ### Reset, parameters and instances -/

/-- The reset values R300 states; and a reset at any time takes the block's registers to them with
no event, leaving what lies outside the block as it is (R301, R302; that the model's environment
fields stay is notes/assumptions/21.md). -/
def Obligations.ResetTakesTheStatedValues : Prop :=
  (State.reset.busy = false ∧ State.reset.bitOrder = .msbFirst ∧ State.reset.cbValid = false ∧
    State.reset.ci = 0 ∧ State.reset.totalChunks = 0 ∧ State.reset.completedCount = 0 ∧
    State.reset.pollCnt = 0 ∧ State.reset.fsm = .idle ∧ State.reset.pos = .none ∧
    State.reset.irqMask = false ∧ State.reset.irqPending = false ∧
    State.reset.csState = .deasserted) ∧
  ∀ (s : State) (rest : List Input), s.inputs = .reset :: rest →
    ∃ t, step s = .next t ∧ t.busy = false ∧ t.bitOrder = .msbFirst ∧ t.cbValid = false ∧
      t.ci = 0 ∧ t.totalChunks = 0 ∧ t.completedCount = 0 ∧ t.pollCnt = 0 ∧ t.fsm = .idle ∧
      t.pos = .none ∧ t.irqMask = false ∧ t.irqPending = false ∧ t.csState = .deasserted ∧
      t.trace = s.trace ∧ t.controller = s.controller ∧ t.config = s.config ∧ t.inputs = rest ∧
      t.answers = s.answers ∧ t.freeCount = s.freeCount

/-- In every configuration the register offsets are multiples of 4 and pairwise distinct, and the
data slots are 4 apart (R35, R64; 32-bit offsets and the sum modulo 2^32 are the model's
notes/assumptions/27.md). -/
def Obligations.RegisterOffsetsAreDistinct : Prop :=
  ∀ c : Config,
    (∀ r : Reg, (c.offset r).toNat % 4 = 0) ∧
    (∀ r q : Reg, c.offset r = c.offset q → r = q) ∧
    ∀ j : Fin 8, c.offset (.data j) = c.regData0 + 4 * BitVec.ofNat 32 j.val

/-- A step of one instance is that instance's own step and changes no other instance (R45, R289; the
list of instances is the model's notes/assumptions/25.md). -/
def Obligations.InstancesAreIndependent : Prop :=
  ∀ (k : Nat) (ss ts : List State), stepInstance k ss = .next ts →
    ts.length = ss.length ∧ (∀ j, j ≠ k → ts[j]? = ss[j]?) ∧
    ∀ s, ss[k]? = some s → ∃ t, step s = .next t ∧ ts[k]? = some t
end

