-- ==== Sys2Proof/Laws/Config.lean ====
section
/-! SUPPORT. What every configuration satisfies: its capacities are this hardware's, its retry budget
and its masks meet the constraints of R9. -/

namespace Sys2Proof.Config

/-- The capacities of every configuration are the source's (R9). -/
theorem capacities_eq (c : Config) : c.toCapacities = Capacities.source := by
  have h := c.valid
  simp only [Params.valid, Params.capacitiesOk, Bool.and_eq_true, decide_eq_true_eq] at h
  exact h.1.1.1

@[simp] theorem opcodeMax_eq (c : Config) : c.opcodeMax = 4 := by
  rw [c.capacities_eq]; rfl

@[simp] theorem numSlots_eq (c : Config) : c.numSlots = 8 := by
  rw [c.capacities_eq]; rfl

@[simp] theorem slotBytes_eq (c : Config) : c.slotBytes = 4 := by
  rw [c.capacities_eq]; rfl

@[simp] theorem hdSendStride_eq (c : Config) : c.hdSendStride = 28 := by
  rw [c.capacities_eq]; rfl

@[simp] theorem hdSendData_eq (c : Config) : c.hdSendData = 24 := by
  rw [c.capacities_eq]; rfl

@[simp] theorem hdRxChunk_eq (c : Config) : c.hdRxChunk = 32 := by
  rw [c.capacities_eq]; rfl

@[simp] theorem fdChunk_eq (c : Config) : c.fdChunk = 16 := by
  rw [c.capacities_eq]; rfl

@[simp] theorem fdSendSlots_eq (c : Config) : c.fdSendSlots = 4 := by
  rw [c.capacities_eq]; rfl

@[simp] theorem fdRxBase_eq (c : Config) : c.fdRxBase = 4 := by
  rw [c.capacities_eq]; rfl

@[simp] theorem lenWidth_eq (c : Config) : c.lenWidth = 32 := by
  rw [c.capacities_eq]; rfl

end Sys2Proof.Config

namespace Sys2Proof.Machine

theorem pollBudget_bounds (c : Config) : 10000 ≤ c.pollBudget ∧ c.pollBudget ≤ 99999 := by
  have h := c.valid
  simp only [Config.Params.valid, Config.Params.budgetOk, Bool.and_eq_true,
    decide_eq_true_eq] at h
  exact h.2

/-- The mask constraints of R9. -/
theorem masks_ok (c : Config) : c.toParams.masksOk = true := by
  have h := c.valid
  simp only [Config.Params.valid, Bool.and_eq_true] at h
  exact h.1.2

theorem busyMask_ne_zero (c : Config) : c.busyMask ≠ 0 := by
  have h := masks_ok c
  simp only [Config.Params.masksOk, Bool.and_eq_true, bne_iff_ne] at h
  exact h.1.2

theorem start_ne_zero (c : Config) : c.start ≠ 0 := by
  have h := masks_ok c
  simp only [Config.Params.masksOk, Bool.and_eq_true, bne_iff_ne] at h
  exact h.1.1.1.1.1.2

theorem mbEn_and_start (c : Config) : c.mbEn &&& c.start = 0 := by
  have h := masks_ok c
  simp only [Config.Params.masksOk, Bool.and_eq_true, beq_iff_eq] at h
  exact h.1.1.1.2

theorem duplexEn_and_start (c : Config) : c.duplexEn &&& c.start = 0 := by
  have h := masks_ok c
  simp only [Config.Params.masksOk, Bool.and_eq_true, beq_iff_eq] at h
  exact h.1.1.2

/-- The send bytes TXLEN can count are those of a well-formed command. -/
@[simp] theorem txCountable_eq (c : Config) (tx : List Byte) : txCountable c tx = txWf tx := by
  simp only [txCountable, txWf, Config.lenWidth_eq]

/-- The command bytes the opcode field holds are those of a well-formed command. -/
@[simp] theorem cmdLegal_eq (c : Config) (cmd : List Byte) : cmdLegal c cmd = cmdWf cmd := by
  simp only [cmdLegal, cmdWf, Config.opcodeMax_eq]

end Sys2Proof.Machine
end

