-- ==== Sys2Proof/Laws/State.lean ====
section
/-! SUPPORT. What each state update does to each field of the state: one lemma a field, true by
definition, so that no later proof unfolds a record update. -/

namespace Sys2Proof.Machine

/-! ### `event` -/

@[simp] theorem State.event_busy (s : State) (e : Event) :
    (s.event e).busy = s.busy := rfl
@[simp] theorem State.event_bitOrder (s : State) (e : Event) :
    (s.event e).bitOrder = s.bitOrder := rfl
@[simp] theorem State.event_cfgOpaque (s : State) (e : Event) :
    (s.event e).cfgOpaque = s.cfgOpaque := rfl
@[simp] theorem State.event_cbValid (s : State) (e : Event) :
    (s.event e).cbValid = s.cbValid := rfl
@[simp] theorem State.event_cbHandle (s : State) (e : Event) :
    (s.event e).cbHandle = s.cbHandle := rfl
@[simp] theorem State.event_cbUdata (s : State) (e : Event) :
    (s.event e).cbUdata = s.cbUdata := rfl
@[simp] theorem State.event_ctx (s : State) (e : Event) :
    (s.event e).ctx = s.ctx := rfl
@[simp] theorem State.event_ci (s : State) (e : Event) :
    (s.event e).ci = s.ci := rfl
@[simp] theorem State.event_totalChunks (s : State) (e : Event) :
    (s.event e).totalChunks = s.totalChunks := rfl
@[simp] theorem State.event_completedCount (s : State) (e : Event) :
    (s.event e).completedCount = s.completedCount := rfl
@[simp] theorem State.event_pollCnt (s : State) (e : Event) :
    (s.event e).pollCnt = s.pollCnt := rfl
@[simp] theorem State.event_fsm (s : State) (e : Event) :
    (s.event e).fsm = s.fsm := rfl
@[simp] theorem State.event_pos (s : State) (e : Event) :
    (s.event e).pos = s.pos := rfl
@[simp] theorem State.event_irqMask (s : State) (e : Event) :
    (s.event e).irqMask = s.irqMask := rfl
@[simp] theorem State.event_irqPending (s : State) (e : Event) :
    (s.event e).irqPending = s.irqPending := rfl
@[simp] theorem State.event_csState (s : State) (e : Event) :
    (s.event e).csState = s.csState := rfl
@[simp] theorem State.event_config (s : State) (e : Event) :
    (s.event e).config = s.config := rfl
@[simp] theorem State.event_controller (s : State) (e : Event) :
    (s.event e).controller = s.controller := rfl
@[simp] theorem State.event_inputs (s : State) (e : Event) :
    (s.event e).inputs = s.inputs := rfl
@[simp] theorem State.event_answers (s : State) (e : Event) :
    (s.event e).answers = s.answers := rfl
@[simp] theorem State.event_freeCount (s : State) (e : Event) :
    (s.event e).freeCount = s.freeCount := rfl
@[simp] theorem State.event_trace (s : State) (e : Event) :
    (s.event e).trace = s.trace ++ [e] := rfl

/-! ### `busWrite` -/

@[simp] theorem State.busWrite_busy (s : State) (r : Reg) (v : Word) :
    (s.busWrite r v).busy = s.busy := rfl
@[simp] theorem State.busWrite_bitOrder (s : State) (r : Reg) (v : Word) :
    (s.busWrite r v).bitOrder = s.bitOrder := rfl
@[simp] theorem State.busWrite_cfgOpaque (s : State) (r : Reg) (v : Word) :
    (s.busWrite r v).cfgOpaque = s.cfgOpaque := rfl
@[simp] theorem State.busWrite_cbValid (s : State) (r : Reg) (v : Word) :
    (s.busWrite r v).cbValid = s.cbValid := rfl
@[simp] theorem State.busWrite_cbHandle (s : State) (r : Reg) (v : Word) :
    (s.busWrite r v).cbHandle = s.cbHandle := rfl
@[simp] theorem State.busWrite_cbUdata (s : State) (r : Reg) (v : Word) :
    (s.busWrite r v).cbUdata = s.cbUdata := rfl
@[simp] theorem State.busWrite_ctx (s : State) (r : Reg) (v : Word) :
    (s.busWrite r v).ctx = s.ctx := rfl
@[simp] theorem State.busWrite_ci (s : State) (r : Reg) (v : Word) :
    (s.busWrite r v).ci = s.ci := rfl
@[simp] theorem State.busWrite_totalChunks (s : State) (r : Reg) (v : Word) :
    (s.busWrite r v).totalChunks = s.totalChunks := rfl
@[simp] theorem State.busWrite_completedCount (s : State) (r : Reg) (v : Word) :
    (s.busWrite r v).completedCount = s.completedCount := rfl
@[simp] theorem State.busWrite_pollCnt (s : State) (r : Reg) (v : Word) :
    (s.busWrite r v).pollCnt = s.pollCnt := rfl
@[simp] theorem State.busWrite_fsm (s : State) (r : Reg) (v : Word) :
    (s.busWrite r v).fsm = s.fsm := rfl
@[simp] theorem State.busWrite_pos (s : State) (r : Reg) (v : Word) :
    (s.busWrite r v).pos = s.pos := rfl
@[simp] theorem State.busWrite_irqMask (s : State) (r : Reg) (v : Word) :
    (s.busWrite r v).irqMask = s.irqMask := rfl
@[simp] theorem State.busWrite_irqPending (s : State) (r : Reg) (v : Word) :
    (s.busWrite r v).irqPending = s.irqPending := rfl
@[simp] theorem State.busWrite_csState (s : State) (r : Reg) (v : Word) :
    (s.busWrite r v).csState = s.csState := rfl
@[simp] theorem State.busWrite_config (s : State) (r : Reg) (v : Word) :
    (s.busWrite r v).config = s.config := rfl
@[simp] theorem State.busWrite_inputs (s : State) (r : Reg) (v : Word) :
    (s.busWrite r v).inputs = s.inputs := rfl
@[simp] theorem State.busWrite_answers (s : State) (r : Reg) (v : Word) :
    (s.busWrite r v).answers = s.answers := rfl
@[simp] theorem State.busWrite_freeCount (s : State) (r : Reg) (v : Word) :
    (s.busWrite r v).freeCount = s.freeCount := rfl
@[simp] theorem State.busWrite_trace (s : State) (r : Reg) (v : Word) :
    (s.busWrite r v).trace = s.trace ++ [.write r v] := rfl

/-! ### `busWriteLength` -/

@[simp] theorem State.busWriteLength_busy (s : State) (c d : Nat) (x : Dir) :
    (s.busWriteLength c d x).busy = s.busy := rfl
@[simp] theorem State.busWriteLength_bitOrder (s : State) (c d : Nat) (x : Dir) :
    (s.busWriteLength c d x).bitOrder = s.bitOrder := rfl
@[simp] theorem State.busWriteLength_cfgOpaque (s : State) (c d : Nat) (x : Dir) :
    (s.busWriteLength c d x).cfgOpaque = s.cfgOpaque := rfl
@[simp] theorem State.busWriteLength_cbValid (s : State) (c d : Nat) (x : Dir) :
    (s.busWriteLength c d x).cbValid = s.cbValid := rfl
@[simp] theorem State.busWriteLength_cbHandle (s : State) (c d : Nat) (x : Dir) :
    (s.busWriteLength c d x).cbHandle = s.cbHandle := rfl
@[simp] theorem State.busWriteLength_cbUdata (s : State) (c d : Nat) (x : Dir) :
    (s.busWriteLength c d x).cbUdata = s.cbUdata := rfl
@[simp] theorem State.busWriteLength_ctx (s : State) (c d : Nat) (x : Dir) :
    (s.busWriteLength c d x).ctx = s.ctx := rfl
@[simp] theorem State.busWriteLength_ci (s : State) (c d : Nat) (x : Dir) :
    (s.busWriteLength c d x).ci = s.ci := rfl
@[simp] theorem State.busWriteLength_totalChunks (s : State) (c d : Nat) (x : Dir) :
    (s.busWriteLength c d x).totalChunks = s.totalChunks := rfl
@[simp] theorem State.busWriteLength_completedCount (s : State) (c d : Nat) (x : Dir) :
    (s.busWriteLength c d x).completedCount = s.completedCount := rfl
@[simp] theorem State.busWriteLength_pollCnt (s : State) (c d : Nat) (x : Dir) :
    (s.busWriteLength c d x).pollCnt = s.pollCnt := rfl
@[simp] theorem State.busWriteLength_fsm (s : State) (c d : Nat) (x : Dir) :
    (s.busWriteLength c d x).fsm = s.fsm := rfl
@[simp] theorem State.busWriteLength_pos (s : State) (c d : Nat) (x : Dir) :
    (s.busWriteLength c d x).pos = s.pos := rfl
@[simp] theorem State.busWriteLength_irqMask (s : State) (c d : Nat) (x : Dir) :
    (s.busWriteLength c d x).irqMask = s.irqMask := rfl
@[simp] theorem State.busWriteLength_irqPending (s : State) (c d : Nat) (x : Dir) :
    (s.busWriteLength c d x).irqPending = s.irqPending := rfl
@[simp] theorem State.busWriteLength_csState (s : State) (c d : Nat) (x : Dir) :
    (s.busWriteLength c d x).csState = s.csState := rfl
@[simp] theorem State.busWriteLength_config (s : State) (c d : Nat) (x : Dir) :
    (s.busWriteLength c d x).config = s.config := rfl
@[simp] theorem State.busWriteLength_inputs (s : State) (c d : Nat) (x : Dir) :
    (s.busWriteLength c d x).inputs = s.inputs := rfl
@[simp] theorem State.busWriteLength_answers (s : State) (c d : Nat) (x : Dir) :
    (s.busWriteLength c d x).answers = s.answers := rfl
@[simp] theorem State.busWriteLength_freeCount (s : State) (c d : Nat) (x : Dir) :
    (s.busWriteLength c d x).freeCount = s.freeCount := rfl
@[simp] theorem State.busWriteLength_trace (s : State) (c d : Nat) (x : Dir) :
    (s.busWriteLength c d x).trace = s.trace ++ [.write .mblen (Config.mblenEnc c d x)] := rfl

/-! ### `busSet` -/

@[simp] theorem State.busSet_busy (s : State) (r : Reg) (m : Word) :
    (s.busSet r m).busy = s.busy := rfl
@[simp] theorem State.busSet_bitOrder (s : State) (r : Reg) (m : Word) :
    (s.busSet r m).bitOrder = s.bitOrder := rfl
@[simp] theorem State.busSet_cfgOpaque (s : State) (r : Reg) (m : Word) :
    (s.busSet r m).cfgOpaque = s.cfgOpaque := rfl
@[simp] theorem State.busSet_cbValid (s : State) (r : Reg) (m : Word) :
    (s.busSet r m).cbValid = s.cbValid := rfl
@[simp] theorem State.busSet_cbHandle (s : State) (r : Reg) (m : Word) :
    (s.busSet r m).cbHandle = s.cbHandle := rfl
@[simp] theorem State.busSet_cbUdata (s : State) (r : Reg) (m : Word) :
    (s.busSet r m).cbUdata = s.cbUdata := rfl
@[simp] theorem State.busSet_ctx (s : State) (r : Reg) (m : Word) :
    (s.busSet r m).ctx = s.ctx := rfl
@[simp] theorem State.busSet_ci (s : State) (r : Reg) (m : Word) :
    (s.busSet r m).ci = s.ci := rfl
@[simp] theorem State.busSet_totalChunks (s : State) (r : Reg) (m : Word) :
    (s.busSet r m).totalChunks = s.totalChunks := rfl
@[simp] theorem State.busSet_completedCount (s : State) (r : Reg) (m : Word) :
    (s.busSet r m).completedCount = s.completedCount := rfl
@[simp] theorem State.busSet_pollCnt (s : State) (r : Reg) (m : Word) :
    (s.busSet r m).pollCnt = s.pollCnt := rfl
@[simp] theorem State.busSet_fsm (s : State) (r : Reg) (m : Word) :
    (s.busSet r m).fsm = s.fsm := rfl
@[simp] theorem State.busSet_pos (s : State) (r : Reg) (m : Word) :
    (s.busSet r m).pos = s.pos := rfl
@[simp] theorem State.busSet_irqMask (s : State) (r : Reg) (m : Word) :
    (s.busSet r m).irqMask = s.irqMask := rfl
@[simp] theorem State.busSet_irqPending (s : State) (r : Reg) (m : Word) :
    (s.busSet r m).irqPending = s.irqPending := rfl
@[simp] theorem State.busSet_csState (s : State) (r : Reg) (m : Word) :
    (s.busSet r m).csState = s.csState := rfl
@[simp] theorem State.busSet_config (s : State) (r : Reg) (m : Word) :
    (s.busSet r m).config = s.config := rfl
@[simp] theorem State.busSet_inputs (s : State) (r : Reg) (m : Word) :
    (s.busSet r m).inputs = s.inputs := rfl
@[simp] theorem State.busSet_answers (s : State) (r : Reg) (m : Word) :
    (s.busSet r m).answers = s.answers := rfl
@[simp] theorem State.busSet_freeCount (s : State) (r : Reg) (m : Word) :
    (s.busSet r m).freeCount = s.freeCount := rfl
@[simp] theorem State.busSet_trace (s : State) (r : Reg) (m : Word) :
    (s.busSet r m).trace = s.trace ++ [.setBits r m] := rfl

/-! ### `busClear` -/

@[simp] theorem State.busClear_busy (s : State) (r : Reg) (m : Word) :
    (s.busClear r m).busy = s.busy := rfl
@[simp] theorem State.busClear_bitOrder (s : State) (r : Reg) (m : Word) :
    (s.busClear r m).bitOrder = s.bitOrder := rfl
@[simp] theorem State.busClear_cfgOpaque (s : State) (r : Reg) (m : Word) :
    (s.busClear r m).cfgOpaque = s.cfgOpaque := rfl
@[simp] theorem State.busClear_cbValid (s : State) (r : Reg) (m : Word) :
    (s.busClear r m).cbValid = s.cbValid := rfl
@[simp] theorem State.busClear_cbHandle (s : State) (r : Reg) (m : Word) :
    (s.busClear r m).cbHandle = s.cbHandle := rfl
@[simp] theorem State.busClear_cbUdata (s : State) (r : Reg) (m : Word) :
    (s.busClear r m).cbUdata = s.cbUdata := rfl
@[simp] theorem State.busClear_ctx (s : State) (r : Reg) (m : Word) :
    (s.busClear r m).ctx = s.ctx := rfl
@[simp] theorem State.busClear_ci (s : State) (r : Reg) (m : Word) :
    (s.busClear r m).ci = s.ci := rfl
@[simp] theorem State.busClear_totalChunks (s : State) (r : Reg) (m : Word) :
    (s.busClear r m).totalChunks = s.totalChunks := rfl
@[simp] theorem State.busClear_completedCount (s : State) (r : Reg) (m : Word) :
    (s.busClear r m).completedCount = s.completedCount := rfl
@[simp] theorem State.busClear_pollCnt (s : State) (r : Reg) (m : Word) :
    (s.busClear r m).pollCnt = s.pollCnt := rfl
@[simp] theorem State.busClear_fsm (s : State) (r : Reg) (m : Word) :
    (s.busClear r m).fsm = s.fsm := rfl
@[simp] theorem State.busClear_pos (s : State) (r : Reg) (m : Word) :
    (s.busClear r m).pos = s.pos := rfl
@[simp] theorem State.busClear_irqMask (s : State) (r : Reg) (m : Word) :
    (s.busClear r m).irqMask = s.irqMask := rfl
@[simp] theorem State.busClear_irqPending (s : State) (r : Reg) (m : Word) :
    (s.busClear r m).irqPending = s.irqPending := rfl
@[simp] theorem State.busClear_csState (s : State) (r : Reg) (m : Word) :
    (s.busClear r m).csState = s.csState := rfl
@[simp] theorem State.busClear_config (s : State) (r : Reg) (m : Word) :
    (s.busClear r m).config = s.config := rfl
@[simp] theorem State.busClear_inputs (s : State) (r : Reg) (m : Word) :
    (s.busClear r m).inputs = s.inputs := rfl
@[simp] theorem State.busClear_answers (s : State) (r : Reg) (m : Word) :
    (s.busClear r m).answers = s.answers := rfl
@[simp] theorem State.busClear_freeCount (s : State) (r : Reg) (m : Word) :
    (s.busClear r m).freeCount = s.freeCount := rfl
@[simp] theorem State.busClear_trace (s : State) (r : Reg) (m : Word) :
    (s.busClear r m).trace = s.trace ++ [.clearBits r m] := rfl

/-! ### `busRead` -/

@[simp] theorem State.busRead_busy (s : State) (r : Reg) :
    (s.busRead r).busy = s.busy := rfl
@[simp] theorem State.busRead_bitOrder (s : State) (r : Reg) :
    (s.busRead r).bitOrder = s.bitOrder := rfl
@[simp] theorem State.busRead_cfgOpaque (s : State) (r : Reg) :
    (s.busRead r).cfgOpaque = s.cfgOpaque := rfl
@[simp] theorem State.busRead_cbValid (s : State) (r : Reg) :
    (s.busRead r).cbValid = s.cbValid := rfl
@[simp] theorem State.busRead_cbHandle (s : State) (r : Reg) :
    (s.busRead r).cbHandle = s.cbHandle := rfl
@[simp] theorem State.busRead_cbUdata (s : State) (r : Reg) :
    (s.busRead r).cbUdata = s.cbUdata := rfl
@[simp] theorem State.busRead_ctx (s : State) (r : Reg) :
    (s.busRead r).ctx = s.ctx := rfl
@[simp] theorem State.busRead_ci (s : State) (r : Reg) :
    (s.busRead r).ci = s.ci := rfl
@[simp] theorem State.busRead_totalChunks (s : State) (r : Reg) :
    (s.busRead r).totalChunks = s.totalChunks := rfl
@[simp] theorem State.busRead_completedCount (s : State) (r : Reg) :
    (s.busRead r).completedCount = s.completedCount := rfl
@[simp] theorem State.busRead_pollCnt (s : State) (r : Reg) :
    (s.busRead r).pollCnt = s.pollCnt := rfl
@[simp] theorem State.busRead_fsm (s : State) (r : Reg) :
    (s.busRead r).fsm = s.fsm := rfl
@[simp] theorem State.busRead_pos (s : State) (r : Reg) :
    (s.busRead r).pos = s.pos := rfl
@[simp] theorem State.busRead_irqMask (s : State) (r : Reg) :
    (s.busRead r).irqMask = s.irqMask := rfl
@[simp] theorem State.busRead_irqPending (s : State) (r : Reg) :
    (s.busRead r).irqPending = s.irqPending := rfl
@[simp] theorem State.busRead_csState (s : State) (r : Reg) :
    (s.busRead r).csState = s.csState := rfl
@[simp] theorem State.busRead_config (s : State) (r : Reg) :
    (s.busRead r).config = s.config := rfl
@[simp] theorem State.busRead_controller (s : State) (r : Reg) :
    (s.busRead r).controller = s.controller := rfl
@[simp] theorem State.busRead_inputs (s : State) (r : Reg) :
    (s.busRead r).inputs = s.inputs := rfl
@[simp] theorem State.busRead_trace (s : State) (r : Reg) :
    (s.busRead r).trace = s.trace ++ [.read r (s.readValue r)] := rfl

/-! ### `setCs` -/

@[simp] theorem State.setCs_busy (s : State) (x : CsState) :
    (s.setCs x).busy = s.busy := rfl
@[simp] theorem State.setCs_bitOrder (s : State) (x : CsState) :
    (s.setCs x).bitOrder = s.bitOrder := rfl
@[simp] theorem State.setCs_cfgOpaque (s : State) (x : CsState) :
    (s.setCs x).cfgOpaque = s.cfgOpaque := rfl
@[simp] theorem State.setCs_cbValid (s : State) (x : CsState) :
    (s.setCs x).cbValid = s.cbValid := rfl
@[simp] theorem State.setCs_cbHandle (s : State) (x : CsState) :
    (s.setCs x).cbHandle = s.cbHandle := rfl
@[simp] theorem State.setCs_cbUdata (s : State) (x : CsState) :
    (s.setCs x).cbUdata = s.cbUdata := rfl
@[simp] theorem State.setCs_ctx (s : State) (x : CsState) :
    (s.setCs x).ctx = s.ctx := rfl
@[simp] theorem State.setCs_ci (s : State) (x : CsState) :
    (s.setCs x).ci = s.ci := rfl
@[simp] theorem State.setCs_totalChunks (s : State) (x : CsState) :
    (s.setCs x).totalChunks = s.totalChunks := rfl
@[simp] theorem State.setCs_completedCount (s : State) (x : CsState) :
    (s.setCs x).completedCount = s.completedCount := rfl
@[simp] theorem State.setCs_pollCnt (s : State) (x : CsState) :
    (s.setCs x).pollCnt = s.pollCnt := rfl
@[simp] theorem State.setCs_fsm (s : State) (x : CsState) :
    (s.setCs x).fsm = s.fsm := rfl
@[simp] theorem State.setCs_pos (s : State) (x : CsState) :
    (s.setCs x).pos = s.pos := rfl
@[simp] theorem State.setCs_irqMask (s : State) (x : CsState) :
    (s.setCs x).irqMask = s.irqMask := rfl
@[simp] theorem State.setCs_irqPending (s : State) (x : CsState) :
    (s.setCs x).irqPending = s.irqPending := rfl
@[simp] theorem State.setCs_csState (s : State) (x : CsState) :
    (s.setCs x).csState = x := rfl
@[simp] theorem State.setCs_config (s : State) (x : CsState) :
    (s.setCs x).config = s.config := rfl
@[simp] theorem State.setCs_controller (s : State) (x : CsState) :
    (s.setCs x).controller = s.controller := rfl
@[simp] theorem State.setCs_inputs (s : State) (x : CsState) :
    (s.setCs x).inputs = s.inputs := rfl
@[simp] theorem State.setCs_answers (s : State) (x : CsState) :
    (s.setCs x).answers = s.answers := rfl
@[simp] theorem State.setCs_freeCount (s : State) (x : CsState) :
    (s.setCs x).freeCount = s.freeCount := rfl

/-! ### `respond` -/

@[simp] theorem State.respond_busy (s : State) (st : Status) (rx : List (Option Byte)) :
    (s.respond st rx).busy = s.busy := rfl
@[simp] theorem State.respond_bitOrder (s : State) (st : Status) (rx : List (Option Byte)) :
    (s.respond st rx).bitOrder = s.bitOrder := rfl
@[simp] theorem State.respond_cfgOpaque (s : State) (st : Status) (rx : List (Option Byte)) :
    (s.respond st rx).cfgOpaque = s.cfgOpaque := rfl
@[simp] theorem State.respond_cbValid (s : State) (st : Status) (rx : List (Option Byte)) :
    (s.respond st rx).cbValid = s.cbValid := rfl
@[simp] theorem State.respond_cbHandle (s : State) (st : Status) (rx : List (Option Byte)) :
    (s.respond st rx).cbHandle = s.cbHandle := rfl
@[simp] theorem State.respond_cbUdata (s : State) (st : Status) (rx : List (Option Byte)) :
    (s.respond st rx).cbUdata = s.cbUdata := rfl
@[simp] theorem State.respond_ctx (s : State) (st : Status) (rx : List (Option Byte)) :
    (s.respond st rx).ctx = s.ctx := rfl
@[simp] theorem State.respond_ci (s : State) (st : Status) (rx : List (Option Byte)) :
    (s.respond st rx).ci = s.ci := rfl
@[simp] theorem State.respond_totalChunks (s : State) (st : Status) (rx : List (Option Byte)) :
    (s.respond st rx).totalChunks = s.totalChunks := rfl
@[simp] theorem State.respond_completedCount (s : State) (st : Status) (rx : List (Option Byte)) :
    (s.respond st rx).completedCount = s.completedCount := rfl
@[simp] theorem State.respond_pollCnt (s : State) (st : Status) (rx : List (Option Byte)) :
    (s.respond st rx).pollCnt = s.pollCnt := rfl
@[simp] theorem State.respond_fsm (s : State) (st : Status) (rx : List (Option Byte)) :
    (s.respond st rx).fsm = s.fsm := rfl
@[simp] theorem State.respond_pos (s : State) (st : Status) (rx : List (Option Byte)) :
    (s.respond st rx).pos = s.pos := rfl
@[simp] theorem State.respond_irqMask (s : State) (st : Status) (rx : List (Option Byte)) :
    (s.respond st rx).irqMask = s.irqMask := rfl
@[simp] theorem State.respond_irqPending (s : State) (st : Status) (rx : List (Option Byte)) :
    (s.respond st rx).irqPending = s.irqPending := rfl
@[simp] theorem State.respond_csState (s : State) (st : Status) (rx : List (Option Byte)) :
    (s.respond st rx).csState = s.csState := rfl
@[simp] theorem State.respond_config (s : State) (st : Status) (rx : List (Option Byte)) :
    (s.respond st rx).config = s.config := rfl
@[simp] theorem State.respond_controller (s : State) (st : Status) (rx : List (Option Byte)) :
    (s.respond st rx).controller = s.controller := rfl
@[simp] theorem State.respond_inputs (s : State) (st : Status) (rx : List (Option Byte)) :
    (s.respond st rx).inputs = s.inputs := rfl
@[simp] theorem State.respond_answers (s : State) (st : Status) (rx : List (Option Byte)) :
    (s.respond st rx).answers = s.answers := rfl
@[simp] theorem State.respond_freeCount (s : State) (st : Status) (rx : List (Option Byte)) :
    (s.respond st rx).freeCount = s.freeCount := rfl
@[simp] theorem State.respond_trace (s : State) (st : Status) (rx : List (Option Byte)) :
    (s.respond st rx).trace = s.trace ++ [.respond st rx] := rfl

/-! ### `refuse` -/

@[simp] theorem State.refuse_busy (s : State) (st : Status) :
    (s.refuse st).busy = s.busy := rfl
@[simp] theorem State.refuse_bitOrder (s : State) (st : Status) :
    (s.refuse st).bitOrder = s.bitOrder := rfl
@[simp] theorem State.refuse_cfgOpaque (s : State) (st : Status) :
    (s.refuse st).cfgOpaque = s.cfgOpaque := rfl
@[simp] theorem State.refuse_cbValid (s : State) (st : Status) :
    (s.refuse st).cbValid = s.cbValid := rfl
@[simp] theorem State.refuse_cbHandle (s : State) (st : Status) :
    (s.refuse st).cbHandle = s.cbHandle := rfl
@[simp] theorem State.refuse_cbUdata (s : State) (st : Status) :
    (s.refuse st).cbUdata = s.cbUdata := rfl
@[simp] theorem State.refuse_ctx (s : State) (st : Status) :
    (s.refuse st).ctx = s.ctx := rfl
@[simp] theorem State.refuse_ci (s : State) (st : Status) :
    (s.refuse st).ci = s.ci := rfl
@[simp] theorem State.refuse_totalChunks (s : State) (st : Status) :
    (s.refuse st).totalChunks = s.totalChunks := rfl
@[simp] theorem State.refuse_completedCount (s : State) (st : Status) :
    (s.refuse st).completedCount = s.completedCount := rfl
@[simp] theorem State.refuse_pollCnt (s : State) (st : Status) :
    (s.refuse st).pollCnt = s.pollCnt := rfl
@[simp] theorem State.refuse_fsm (s : State) (st : Status) :
    (s.refuse st).fsm = s.fsm := rfl
@[simp] theorem State.refuse_pos (s : State) (st : Status) :
    (s.refuse st).pos = s.pos := rfl
@[simp] theorem State.refuse_irqMask (s : State) (st : Status) :
    (s.refuse st).irqMask = s.irqMask := rfl
@[simp] theorem State.refuse_irqPending (s : State) (st : Status) :
    (s.refuse st).irqPending = s.irqPending := rfl
@[simp] theorem State.refuse_csState (s : State) (st : Status) :
    (s.refuse st).csState = s.csState := rfl
@[simp] theorem State.refuse_config (s : State) (st : Status) :
    (s.refuse st).config = s.config := rfl
@[simp] theorem State.refuse_controller (s : State) (st : Status) :
    (s.refuse st).controller = s.controller := rfl
@[simp] theorem State.refuse_inputs (s : State) (st : Status) :
    (s.refuse st).inputs = s.inputs := rfl
@[simp] theorem State.refuse_answers (s : State) (st : Status) :
    (s.refuse st).answers = s.answers := rfl
@[simp] theorem State.refuse_freeCount (s : State) (st : Status) :
    (s.refuse st).freeCount = s.freeCount := rfl
@[simp] theorem State.refuse_trace (s : State) (st : Status) :
    (s.refuse st).trace = s.trace ++ [.respond st []] := rfl

/-! ### `latch` -/

@[simp] theorem State.latch_busy (s : State) (q : Request) :
    (s.latch q).busy = true := rfl
@[simp] theorem State.latch_bitOrder (s : State) (q : Request) :
    (s.latch q).bitOrder = s.bitOrder := rfl
@[simp] theorem State.latch_cfgOpaque (s : State) (q : Request) :
    (s.latch q).cfgOpaque = s.cfgOpaque := rfl
@[simp] theorem State.latch_cbValid (s : State) (q : Request) :
    (s.latch q).cbValid = s.cbValid := rfl
@[simp] theorem State.latch_cbHandle (s : State) (q : Request) :
    (s.latch q).cbHandle = s.cbHandle := rfl
@[simp] theorem State.latch_cbUdata (s : State) (q : Request) :
    (s.latch q).cbUdata = s.cbUdata := rfl
@[simp] theorem State.latch_ctx (s : State) (q : Request) :
    (s.latch q).ctx = q.context s.bitOrder := rfl
@[simp] theorem State.latch_ci (s : State) (q : Request) :
    (s.latch q).ci = 0 := rfl
@[simp] theorem State.latch_totalChunks (s : State) (q : Request) :
    (s.latch q).totalChunks = BitVec.ofNat 32 (q.chunks s.config) := rfl
@[simp] theorem State.latch_completedCount (s : State) (q : Request) :
    (s.latch q).completedCount = 0 := rfl
@[simp] theorem State.latch_pollCnt (s : State) (q : Request) :
    (s.latch q).pollCnt = s.pollCnt := rfl
@[simp] theorem State.latch_fsm (s : State) (q : Request) :
    (s.latch q).fsm = .run := rfl
@[simp] theorem State.latch_pos (s : State) (q : Request) :
    (s.latch q).pos = .csAssert := rfl
@[simp] theorem State.latch_irqMask (s : State) (q : Request) :
    (s.latch q).irqMask = s.irqMask := rfl
@[simp] theorem State.latch_csState (s : State) (q : Request) :
    (s.latch q).csState = s.csState := rfl
@[simp] theorem State.latch_config (s : State) (q : Request) :
    (s.latch q).config = s.config := rfl
@[simp] theorem State.latch_controller (s : State) (q : Request) :
    (s.latch q).controller = s.controller := rfl
@[simp] theorem State.latch_inputs (s : State) (q : Request) :
    (s.latch q).inputs = s.inputs := rfl
@[simp] theorem State.latch_answers (s : State) (q : Request) :
    (s.latch q).answers = s.answers := rfl
@[simp] theorem State.latch_freeCount (s : State) (q : Request) :
    (s.latch q).freeCount = s.freeCount := rfl
@[simp] theorem State.latch_trace (s : State) (q : Request) :
    (s.latch q).trace = s.trace := rfl

/-! ### `latchIrq` -/

@[simp] theorem State.latchIrq_busy (s : State) :
    (s.latchIrq).busy = s.busy := rfl
@[simp] theorem State.latchIrq_bitOrder (s : State) :
    (s.latchIrq).bitOrder = s.bitOrder := rfl
@[simp] theorem State.latchIrq_cfgOpaque (s : State) :
    (s.latchIrq).cfgOpaque = s.cfgOpaque := rfl
@[simp] theorem State.latchIrq_cbValid (s : State) :
    (s.latchIrq).cbValid = s.cbValid := rfl
@[simp] theorem State.latchIrq_cbHandle (s : State) :
    (s.latchIrq).cbHandle = s.cbHandle := rfl
@[simp] theorem State.latchIrq_cbUdata (s : State) :
    (s.latchIrq).cbUdata = s.cbUdata := rfl
@[simp] theorem State.latchIrq_ctx (s : State) :
    (s.latchIrq).ctx = s.ctx := rfl
@[simp] theorem State.latchIrq_ci (s : State) :
    (s.latchIrq).ci = s.ci := rfl
@[simp] theorem State.latchIrq_totalChunks (s : State) :
    (s.latchIrq).totalChunks = s.totalChunks := rfl
@[simp] theorem State.latchIrq_completedCount (s : State) :
    (s.latchIrq).completedCount = s.completedCount := rfl
@[simp] theorem State.latchIrq_pollCnt (s : State) :
    (s.latchIrq).pollCnt = s.pollCnt := rfl
@[simp] theorem State.latchIrq_fsm (s : State) :
    (s.latchIrq).fsm = s.fsm := rfl
@[simp] theorem State.latchIrq_pos (s : State) :
    (s.latchIrq).pos = s.pos := rfl
@[simp] theorem State.latchIrq_irqMask (s : State) :
    (s.latchIrq).irqMask = s.irqMask := rfl
@[simp] theorem State.latchIrq_irqPending (s : State) :
    (s.latchIrq).irqPending = (s.irqPending || s.asyncInFlight) := rfl
@[simp] theorem State.latchIrq_csState (s : State) :
    (s.latchIrq).csState = s.csState := rfl
@[simp] theorem State.latchIrq_config (s : State) :
    (s.latchIrq).config = s.config := rfl
@[simp] theorem State.latchIrq_controller (s : State) :
    (s.latchIrq).controller = s.controller := rfl
@[simp] theorem State.latchIrq_inputs (s : State) :
    (s.latchIrq).inputs = s.inputs := rfl
@[simp] theorem State.latchIrq_answers (s : State) :
    (s.latchIrq).answers = s.answers := rfl
@[simp] theorem State.latchIrq_freeCount (s : State) :
    (s.latchIrq).freeCount = s.freeCount := rfl
@[simp] theorem State.latchIrq_trace (s : State) :
    (s.latchIrq).trace = s.trace := rfl

/-! ### `takeInterrupt` -/

@[simp] theorem State.takeInterrupt_busy (s : State) :
    (s.takeInterrupt).busy = s.busy := rfl
@[simp] theorem State.takeInterrupt_bitOrder (s : State) :
    (s.takeInterrupt).bitOrder = s.bitOrder := rfl
@[simp] theorem State.takeInterrupt_cfgOpaque (s : State) :
    (s.takeInterrupt).cfgOpaque = s.cfgOpaque := rfl
@[simp] theorem State.takeInterrupt_cbValid (s : State) :
    (s.takeInterrupt).cbValid = s.cbValid := rfl
@[simp] theorem State.takeInterrupt_cbHandle (s : State) :
    (s.takeInterrupt).cbHandle = s.cbHandle := rfl
@[simp] theorem State.takeInterrupt_cbUdata (s : State) :
    (s.takeInterrupt).cbUdata = s.cbUdata := rfl
@[simp] theorem State.takeInterrupt_ctx (s : State) :
    (s.takeInterrupt).ctx = s.ctx := rfl
@[simp] theorem State.takeInterrupt_ci (s : State) :
    (s.takeInterrupt).ci = s.ci := rfl
@[simp] theorem State.takeInterrupt_totalChunks (s : State) :
    (s.takeInterrupt).totalChunks = s.totalChunks := rfl
@[simp] theorem State.takeInterrupt_completedCount (s : State) :
    (s.takeInterrupt).completedCount = s.completedCount := rfl
@[simp] theorem State.takeInterrupt_pollCnt (s : State) :
    (s.takeInterrupt).pollCnt = s.pollCnt := rfl
@[simp] theorem State.takeInterrupt_fsm (s : State) :
    (s.takeInterrupt).fsm = .isr := rfl
@[simp] theorem State.takeInterrupt_pos (s : State) :
    (s.takeInterrupt).pos = .isrClear := rfl
@[simp] theorem State.takeInterrupt_irqMask (s : State) :
    (s.takeInterrupt).irqMask = s.irqMask := rfl
@[simp] theorem State.takeInterrupt_irqPending (s : State) :
    (s.takeInterrupt).irqPending = false := rfl
@[simp] theorem State.takeInterrupt_csState (s : State) :
    (s.takeInterrupt).csState = s.csState := rfl
@[simp] theorem State.takeInterrupt_config (s : State) :
    (s.takeInterrupt).config = s.config := rfl
@[simp] theorem State.takeInterrupt_controller (s : State) :
    (s.takeInterrupt).controller = s.controller := rfl
@[simp] theorem State.takeInterrupt_inputs (s : State) :
    (s.takeInterrupt).inputs = s.inputs := rfl
@[simp] theorem State.takeInterrupt_answers (s : State) :
    (s.takeInterrupt).answers = s.answers := rfl
@[simp] theorem State.takeInterrupt_freeCount (s : State) :
    (s.takeInterrupt).freeCount = s.freeCount := rfl
@[simp] theorem State.takeInterrupt_trace (s : State) :
    (s.takeInterrupt).trace = s.trace := rfl

/-! ### `toWaitIrq` -/

@[simp] theorem State.toWaitIrq_busy (s : State) :
    (s.toWaitIrq).busy = s.busy := rfl
@[simp] theorem State.toWaitIrq_bitOrder (s : State) :
    (s.toWaitIrq).bitOrder = s.bitOrder := rfl
@[simp] theorem State.toWaitIrq_cfgOpaque (s : State) :
    (s.toWaitIrq).cfgOpaque = s.cfgOpaque := rfl
@[simp] theorem State.toWaitIrq_cbValid (s : State) :
    (s.toWaitIrq).cbValid = s.cbValid := rfl
@[simp] theorem State.toWaitIrq_cbHandle (s : State) :
    (s.toWaitIrq).cbHandle = s.cbHandle := rfl
@[simp] theorem State.toWaitIrq_cbUdata (s : State) :
    (s.toWaitIrq).cbUdata = s.cbUdata := rfl
@[simp] theorem State.toWaitIrq_ctx (s : State) :
    (s.toWaitIrq).ctx = s.ctx := rfl
@[simp] theorem State.toWaitIrq_ci (s : State) :
    (s.toWaitIrq).ci = s.ci := rfl
@[simp] theorem State.toWaitIrq_totalChunks (s : State) :
    (s.toWaitIrq).totalChunks = s.totalChunks := rfl
@[simp] theorem State.toWaitIrq_completedCount (s : State) :
    (s.toWaitIrq).completedCount = s.completedCount := rfl
@[simp] theorem State.toWaitIrq_pollCnt (s : State) :
    (s.toWaitIrq).pollCnt = s.pollCnt := rfl
@[simp] theorem State.toWaitIrq_fsm (s : State) :
    (s.toWaitIrq).fsm = .waitIrq := rfl
@[simp] theorem State.toWaitIrq_pos (s : State) :
    (s.toWaitIrq).pos = .none := rfl
@[simp] theorem State.toWaitIrq_irqMask (s : State) :
    (s.toWaitIrq).irqMask = s.irqMask := rfl
@[simp] theorem State.toWaitIrq_irqPending (s : State) :
    (s.toWaitIrq).irqPending = s.irqPending := rfl
@[simp] theorem State.toWaitIrq_csState (s : State) :
    (s.toWaitIrq).csState = s.csState := rfl
@[simp] theorem State.toWaitIrq_config (s : State) :
    (s.toWaitIrq).config = s.config := rfl
@[simp] theorem State.toWaitIrq_controller (s : State) :
    (s.toWaitIrq).controller = s.controller := rfl
@[simp] theorem State.toWaitIrq_inputs (s : State) :
    (s.toWaitIrq).inputs = s.inputs := rfl
@[simp] theorem State.toWaitIrq_answers (s : State) :
    (s.toWaitIrq).answers = s.answers := rfl
@[simp] theorem State.toWaitIrq_freeCount (s : State) :
    (s.toWaitIrq).freeCount = s.freeCount := rfl
@[simp] theorem State.toWaitIrq_trace (s : State) :
    (s.toWaitIrq).trace = s.trace := rfl

/-! ### `release` -/

@[simp] theorem State.release_busy (s : State) :
    (s.release).busy = false := rfl
@[simp] theorem State.release_bitOrder (s : State) :
    (s.release).bitOrder = s.bitOrder := rfl
@[simp] theorem State.release_cfgOpaque (s : State) :
    (s.release).cfgOpaque = s.cfgOpaque := rfl
@[simp] theorem State.release_cbValid (s : State) :
    (s.release).cbValid = s.cbValid := rfl
@[simp] theorem State.release_cbHandle (s : State) :
    (s.release).cbHandle = s.cbHandle := rfl
@[simp] theorem State.release_cbUdata (s : State) :
    (s.release).cbUdata = s.cbUdata := rfl
@[simp] theorem State.release_ctx (s : State) :
    (s.release).ctx = s.ctx := rfl
@[simp] theorem State.release_ci (s : State) :
    (s.release).ci = s.ci := rfl
@[simp] theorem State.release_totalChunks (s : State) :
    (s.release).totalChunks = s.totalChunks := rfl
@[simp] theorem State.release_completedCount (s : State) :
    (s.release).completedCount = s.completedCount := rfl
@[simp] theorem State.release_pollCnt (s : State) :
    (s.release).pollCnt = s.pollCnt := rfl
@[simp] theorem State.release_fsm (s : State) :
    (s.release).fsm = .idle := rfl
@[simp] theorem State.release_pos (s : State) :
    (s.release).pos = .none := rfl
@[simp] theorem State.release_irqMask (s : State) :
    (s.release).irqMask = s.irqMask := rfl
@[simp] theorem State.release_irqPending (s : State) :
    (s.release).irqPending = s.irqPending := rfl
@[simp] theorem State.release_csState (s : State) :
    (s.release).csState = s.csState := rfl
@[simp] theorem State.release_config (s : State) :
    (s.release).config = s.config := rfl
@[simp] theorem State.release_controller (s : State) :
    (s.release).controller = s.controller := rfl
@[simp] theorem State.release_inputs (s : State) :
    (s.release).inputs = s.inputs := rfl
@[simp] theorem State.release_answers (s : State) :
    (s.release).answers = s.answers := rfl
@[simp] theorem State.release_freeCount (s : State) :
    (s.release).freeCount = s.freeCount := rfl
@[simp] theorem State.release_trace (s : State) :
    (s.release).trace = s.trace := rfl

/-! ### `endPoll` -/

@[simp] theorem State.endPoll_busy (s : State) (st : Status) :
    (s.endPoll st).busy = false := rfl
@[simp] theorem State.endPoll_bitOrder (s : State) (st : Status) :
    (s.endPoll st).bitOrder = s.bitOrder := rfl
@[simp] theorem State.endPoll_cfgOpaque (s : State) (st : Status) :
    (s.endPoll st).cfgOpaque = s.cfgOpaque := rfl
@[simp] theorem State.endPoll_cbValid (s : State) (st : Status) :
    (s.endPoll st).cbValid = s.cbValid := rfl
@[simp] theorem State.endPoll_cbHandle (s : State) (st : Status) :
    (s.endPoll st).cbHandle = s.cbHandle := rfl
@[simp] theorem State.endPoll_cbUdata (s : State) (st : Status) :
    (s.endPoll st).cbUdata = s.cbUdata := rfl
@[simp] theorem State.endPoll_ctx (s : State) (st : Status) :
    (s.endPoll st).ctx = s.ctx := rfl
@[simp] theorem State.endPoll_ci (s : State) (st : Status) :
    (s.endPoll st).ci = s.ci := rfl
@[simp] theorem State.endPoll_totalChunks (s : State) (st : Status) :
    (s.endPoll st).totalChunks = s.totalChunks := rfl
@[simp] theorem State.endPoll_completedCount (s : State) (st : Status) :
    (s.endPoll st).completedCount = s.completedCount := rfl
@[simp] theorem State.endPoll_pollCnt (s : State) (st : Status) :
    (s.endPoll st).pollCnt = s.pollCnt := rfl
@[simp] theorem State.endPoll_fsm (s : State) (st : Status) :
    (s.endPoll st).fsm = .idle := rfl
@[simp] theorem State.endPoll_pos (s : State) (st : Status) :
    (s.endPoll st).pos = .none := rfl
@[simp] theorem State.endPoll_irqMask (s : State) (st : Status) :
    (s.endPoll st).irqMask = s.irqMask := rfl
@[simp] theorem State.endPoll_irqPending (s : State) (st : Status) :
    (s.endPoll st).irqPending = s.irqPending := rfl
@[simp] theorem State.endPoll_csState (s : State) (st : Status) :
    (s.endPoll st).csState = s.csState := rfl
@[simp] theorem State.endPoll_config (s : State) (st : Status) :
    (s.endPoll st).config = s.config := rfl
@[simp] theorem State.endPoll_controller (s : State) (st : Status) :
    (s.endPoll st).controller = s.controller := rfl
@[simp] theorem State.endPoll_inputs (s : State) (st : Status) :
    (s.endPoll st).inputs = s.inputs := rfl
@[simp] theorem State.endPoll_answers (s : State) (st : Status) :
    (s.endPoll st).answers = s.answers := rfl
@[simp] theorem State.endPoll_freeCount (s : State) (st : Status) :
    (s.endPoll st).freeCount = s.freeCount := rfl
@[simp] theorem State.endPoll_trace (s : State) (st : Status) :
    (s.endPoll st).trace = s.trace ++ [.respond st s.out] := rfl

/-! ### `endAsync` -/

@[simp] theorem State.endAsync_busy (s : State) (c : EventCode) :
    (s.endAsync c).busy = false := rfl
@[simp] theorem State.endAsync_bitOrder (s : State) (c : EventCode) :
    (s.endAsync c).bitOrder = s.bitOrder := rfl
@[simp] theorem State.endAsync_cfgOpaque (s : State) (c : EventCode) :
    (s.endAsync c).cfgOpaque = s.cfgOpaque := rfl
@[simp] theorem State.endAsync_cbValid (s : State) (c : EventCode) :
    (s.endAsync c).cbValid = s.cbValid := rfl
@[simp] theorem State.endAsync_cbHandle (s : State) (c : EventCode) :
    (s.endAsync c).cbHandle = s.cbHandle := rfl
@[simp] theorem State.endAsync_cbUdata (s : State) (c : EventCode) :
    (s.endAsync c).cbUdata = s.cbUdata := rfl
@[simp] theorem State.endAsync_ctx (s : State) (c : EventCode) :
    (s.endAsync c).ctx = s.ctx := rfl
@[simp] theorem State.endAsync_ci (s : State) (c : EventCode) :
    (s.endAsync c).ci = s.ci := rfl
@[simp] theorem State.endAsync_totalChunks (s : State) (c : EventCode) :
    (s.endAsync c).totalChunks = s.totalChunks := rfl
@[simp] theorem State.endAsync_completedCount (s : State) (c : EventCode) :
    (s.endAsync c).completedCount = 0 := rfl
@[simp] theorem State.endAsync_pollCnt (s : State) (c : EventCode) :
    (s.endAsync c).pollCnt = s.pollCnt := rfl
@[simp] theorem State.endAsync_fsm (s : State) (c : EventCode) :
    (s.endAsync c).fsm = .idle := rfl
@[simp] theorem State.endAsync_pos (s : State) (c : EventCode) :
    (s.endAsync c).pos = .none := rfl
@[simp] theorem State.endAsync_irqMask (s : State) (c : EventCode) :
    (s.endAsync c).irqMask = s.irqMask := rfl
@[simp] theorem State.endAsync_irqPending (s : State) (c : EventCode) :
    (s.endAsync c).irqPending = s.irqPending := rfl
@[simp] theorem State.endAsync_csState (s : State) (c : EventCode) :
    (s.endAsync c).csState = s.csState := rfl
@[simp] theorem State.endAsync_config (s : State) (c : EventCode) :
    (s.endAsync c).config = s.config := rfl
@[simp] theorem State.endAsync_controller (s : State) (c : EventCode) :
    (s.endAsync c).controller = s.controller := rfl
@[simp] theorem State.endAsync_inputs (s : State) (c : EventCode) :
    (s.endAsync c).inputs = s.inputs := rfl
@[simp] theorem State.endAsync_answers (s : State) (c : EventCode) :
    (s.endAsync c).answers = s.answers := rfl
@[simp] theorem State.endAsync_freeCount (s : State) (c : EventCode) :
    (s.endAsync c).freeCount = s.freeCount := rfl
@[simp] theorem State.endAsync_trace (s : State) (c : EventCode) :
    (s.endAsync c).trace = s.trace ++ [.emit s.cbHandle c s.cbUdata s.out] := rfl

/-! ### `polledDone` -/

@[simp] theorem State.polledDone_busy (s : State) :
    (s.polledDone).busy = s.busy := rfl
@[simp] theorem State.polledDone_bitOrder (s : State) :
    (s.polledDone).bitOrder = s.bitOrder := rfl
@[simp] theorem State.polledDone_cfgOpaque (s : State) :
    (s.polledDone).cfgOpaque = s.cfgOpaque := rfl
@[simp] theorem State.polledDone_cbValid (s : State) :
    (s.polledDone).cbValid = s.cbValid := rfl
@[simp] theorem State.polledDone_cbHandle (s : State) :
    (s.polledDone).cbHandle = s.cbHandle := rfl
@[simp] theorem State.polledDone_cbUdata (s : State) :
    (s.polledDone).cbUdata = s.cbUdata := rfl
@[simp] theorem State.polledDone_ctx (s : State) :
    (s.polledDone).ctx = s.ctx := rfl
@[simp] theorem State.polledDone_ci (s : State) :
    (s.polledDone).ci = s.ci + 1 := rfl
@[simp] theorem State.polledDone_totalChunks (s : State) :
    (s.polledDone).totalChunks = s.totalChunks := rfl
@[simp] theorem State.polledDone_completedCount (s : State) :
    (s.polledDone).completedCount = s.completedCount := rfl
@[simp] theorem State.polledDone_pollCnt (s : State) :
    (s.polledDone).pollCnt = s.pollCnt := rfl
@[simp] theorem State.polledDone_fsm (s : State) :
    (s.polledDone).fsm = s.fsm := rfl
@[simp] theorem State.polledDone_irqMask (s : State) :
    (s.polledDone).irqMask = s.irqMask := rfl
@[simp] theorem State.polledDone_irqPending (s : State) :
    (s.polledDone).irqPending = s.irqPending := rfl
@[simp] theorem State.polledDone_csState (s : State) :
    (s.polledDone).csState = s.csState := rfl
@[simp] theorem State.polledDone_config (s : State) :
    (s.polledDone).config = s.config := rfl
@[simp] theorem State.polledDone_controller (s : State) :
    (s.polledDone).controller = s.controller := rfl
@[simp] theorem State.polledDone_inputs (s : State) :
    (s.polledDone).inputs = s.inputs := rfl
@[simp] theorem State.polledDone_answers (s : State) :
    (s.polledDone).answers = s.answers := rfl
@[simp] theorem State.polledDone_freeCount (s : State) :
    (s.polledDone).freeCount = s.freeCount := rfl
@[simp] theorem State.polledDone_trace (s : State) :
    (s.polledDone).trace = s.trace := rfl

/-! ### `afterPoll` -/

@[simp] theorem State.afterPoll_busy (s : State) (v : Word) :
    (s.afterPoll v).busy = s.busy := rfl
@[simp] theorem State.afterPoll_bitOrder (s : State) (v : Word) :
    (s.afterPoll v).bitOrder = s.bitOrder := rfl
@[simp] theorem State.afterPoll_cfgOpaque (s : State) (v : Word) :
    (s.afterPoll v).cfgOpaque = s.cfgOpaque := rfl
@[simp] theorem State.afterPoll_cbValid (s : State) (v : Word) :
    (s.afterPoll v).cbValid = s.cbValid := rfl
@[simp] theorem State.afterPoll_cbHandle (s : State) (v : Word) :
    (s.afterPoll v).cbHandle = s.cbHandle := rfl
@[simp] theorem State.afterPoll_cbUdata (s : State) (v : Word) :
    (s.afterPoll v).cbUdata = s.cbUdata := rfl
@[simp] theorem State.afterPoll_ctx (s : State) (v : Word) :
    (s.afterPoll v).ctx = s.ctx := rfl
@[simp] theorem State.afterPoll_ci (s : State) (v : Word) :
    (s.afterPoll v).ci = s.ci := rfl
@[simp] theorem State.afterPoll_totalChunks (s : State) (v : Word) :
    (s.afterPoll v).totalChunks = s.totalChunks := rfl
@[simp] theorem State.afterPoll_completedCount (s : State) (v : Word) :
    (s.afterPoll v).completedCount = s.completedCount := rfl
@[simp] theorem State.afterPoll_pollCnt (s : State) (v : Word) :
    (s.afterPoll v).pollCnt = s.pollCnt + 1 := rfl
@[simp] theorem State.afterPoll_fsm (s : State) (v : Word) :
    (s.afterPoll v).fsm = s.fsm := rfl
@[simp] theorem State.afterPoll_irqMask (s : State) (v : Word) :
    (s.afterPoll v).irqMask = s.irqMask := rfl
@[simp] theorem State.afterPoll_irqPending (s : State) (v : Word) :
    (s.afterPoll v).irqPending = s.irqPending := rfl
@[simp] theorem State.afterPoll_csState (s : State) (v : Word) :
    (s.afterPoll v).csState = s.csState := rfl
@[simp] theorem State.afterPoll_config (s : State) (v : Word) :
    (s.afterPoll v).config = s.config := rfl
@[simp] theorem State.afterPoll_controller (s : State) (v : Word) :
    (s.afterPoll v).controller = s.controller := rfl
@[simp] theorem State.afterPoll_inputs (s : State) (v : Word) :
    (s.afterPoll v).inputs = s.inputs := rfl
@[simp] theorem State.afterPoll_answers (s : State) (v : Word) :
    (s.afterPoll v).answers = s.answers := rfl
@[simp] theorem State.afterPoll_freeCount (s : State) (v : Word) :
    (s.afterPoll v).freeCount = s.freeCount := rfl
@[simp] theorem State.afterPoll_trace (s : State) (v : Word) :
    (s.afterPoll v).trace = s.trace := rfl

/-! ### `withMask` -/

@[simp] theorem State.withMask_busy (s : State) (b : Bool) :
    (s.withMask b).busy = s.busy := rfl
@[simp] theorem State.withMask_bitOrder (s : State) (b : Bool) :
    (s.withMask b).bitOrder = s.bitOrder := rfl
@[simp] theorem State.withMask_cfgOpaque (s : State) (b : Bool) :
    (s.withMask b).cfgOpaque = s.cfgOpaque := rfl
@[simp] theorem State.withMask_cbValid (s : State) (b : Bool) :
    (s.withMask b).cbValid = s.cbValid := rfl
@[simp] theorem State.withMask_cbHandle (s : State) (b : Bool) :
    (s.withMask b).cbHandle = s.cbHandle := rfl
@[simp] theorem State.withMask_cbUdata (s : State) (b : Bool) :
    (s.withMask b).cbUdata = s.cbUdata := rfl
@[simp] theorem State.withMask_ctx (s : State) (b : Bool) :
    (s.withMask b).ctx = s.ctx := rfl
@[simp] theorem State.withMask_ci (s : State) (b : Bool) :
    (s.withMask b).ci = s.ci := rfl
@[simp] theorem State.withMask_totalChunks (s : State) (b : Bool) :
    (s.withMask b).totalChunks = s.totalChunks := rfl
@[simp] theorem State.withMask_completedCount (s : State) (b : Bool) :
    (s.withMask b).completedCount = s.completedCount := rfl
@[simp] theorem State.withMask_pollCnt (s : State) (b : Bool) :
    (s.withMask b).pollCnt = s.pollCnt := rfl
@[simp] theorem State.withMask_fsm (s : State) (b : Bool) :
    (s.withMask b).fsm = s.fsm := rfl
@[simp] theorem State.withMask_pos (s : State) (b : Bool) :
    (s.withMask b).pos = s.pos := rfl
@[simp] theorem State.withMask_irqMask (s : State) (b : Bool) :
    (s.withMask b).irqMask = b := rfl
@[simp] theorem State.withMask_irqPending (s : State) (b : Bool) :
    (s.withMask b).irqPending = s.irqPending := rfl
@[simp] theorem State.withMask_csState (s : State) (b : Bool) :
    (s.withMask b).csState = s.csState := rfl
@[simp] theorem State.withMask_config (s : State) (b : Bool) :
    (s.withMask b).config = s.config := rfl
@[simp] theorem State.withMask_controller (s : State) (b : Bool) :
    (s.withMask b).controller = s.controller := rfl
@[simp] theorem State.withMask_inputs (s : State) (b : Bool) :
    (s.withMask b).inputs = s.inputs := rfl
@[simp] theorem State.withMask_answers (s : State) (b : Bool) :
    (s.withMask b).answers = s.answers := rfl
@[simp] theorem State.withMask_freeCount (s : State) (b : Bool) :
    (s.withMask b).freeCount = s.freeCount := rfl
@[simp] theorem State.withMask_trace (s : State) (b : Bool) :
    (s.withMask b).trace = s.trace := rfl

/-! ### `popInput` -/

@[simp] theorem State.popInput_busy (s : State) :
    (s.popInput).busy = s.busy := rfl
@[simp] theorem State.popInput_bitOrder (s : State) :
    (s.popInput).bitOrder = s.bitOrder := rfl
@[simp] theorem State.popInput_cfgOpaque (s : State) :
    (s.popInput).cfgOpaque = s.cfgOpaque := rfl
@[simp] theorem State.popInput_cbValid (s : State) :
    (s.popInput).cbValid = s.cbValid := rfl
@[simp] theorem State.popInput_cbHandle (s : State) :
    (s.popInput).cbHandle = s.cbHandle := rfl
@[simp] theorem State.popInput_cbUdata (s : State) :
    (s.popInput).cbUdata = s.cbUdata := rfl
@[simp] theorem State.popInput_ctx (s : State) :
    (s.popInput).ctx = s.ctx := rfl
@[simp] theorem State.popInput_ci (s : State) :
    (s.popInput).ci = s.ci := rfl
@[simp] theorem State.popInput_totalChunks (s : State) :
    (s.popInput).totalChunks = s.totalChunks := rfl
@[simp] theorem State.popInput_completedCount (s : State) :
    (s.popInput).completedCount = s.completedCount := rfl
@[simp] theorem State.popInput_pollCnt (s : State) :
    (s.popInput).pollCnt = s.pollCnt := rfl
@[simp] theorem State.popInput_fsm (s : State) :
    (s.popInput).fsm = s.fsm := rfl
@[simp] theorem State.popInput_pos (s : State) :
    (s.popInput).pos = s.pos := rfl
@[simp] theorem State.popInput_irqMask (s : State) :
    (s.popInput).irqMask = s.irqMask := rfl
@[simp] theorem State.popInput_irqPending (s : State) :
    (s.popInput).irqPending = s.irqPending := rfl
@[simp] theorem State.popInput_csState (s : State) :
    (s.popInput).csState = s.csState := rfl
@[simp] theorem State.popInput_config (s : State) :
    (s.popInput).config = s.config := rfl
@[simp] theorem State.popInput_controller (s : State) :
    (s.popInput).controller = s.controller := rfl
@[simp] theorem State.popInput_inputs (s : State) :
    (s.popInput).inputs = s.inputs.tail := rfl
@[simp] theorem State.popInput_answers (s : State) :
    (s.popInput).answers = s.answers := rfl
@[simp] theorem State.popInput_freeCount (s : State) :
    (s.popInput).freeCount = s.freeCount := rfl
@[simp] theorem State.popInput_trace (s : State) :
    (s.popInput).trace = s.trace := rfl

end Sys2Proof.Machine
end

