-- ==== Sys2Proof/Laws/Admission.lean ====
section
/-! SUPPORT. What a command does at the request port, said once: the three ends of admission, and the
inversion of `exec` (it refuses, it sets a session register, or it latches a request). -/

namespace Sys2Proof.Machine

theorem admission_invalid (s : State) {l o c : Bool} (acc : State → State)
    (h : (l && o && c) = false) : s.admission l o c acc = s.refuse .invalidParameter := by
  cases l <;> cases o <;> cases c <;> simp_all [State.admission]

theorem admission_busy (s : State) (acc : State → State) (h : s.busy = true) :
    s.admission true true true acc = (s.withMask false).refuse .busy := by
  simp [State.admission, State.testAndSet, State.withMask, h]

theorem admission_accepts (s : State) (acc : State → State) (h : s.busy = false) :
    s.admission true true true acc =
      (acc (s.withMask true)).withMask false := by
  simp [State.admission, State.testAndSet, State.withMask, h]

/-- What admission can answer. -/
theorem admission_cases (s : State) (l o c : Bool) (acc : State → State) :
    (s.admission l o c acc = s.refuse .invalidParameter ∧ (l && o && c) = false) ∨
    (s.admission l o c acc = (s.withMask false).refuse .busy ∧ s.busy = true ∧
      (l && o && c) = true) ∨
    (s.admission l o c acc = (acc (s.withMask true)).withMask false ∧
      s.busy = false ∧ (l && o && c) = true) := by
  cases h : l && o && c with
  | false => exact .inl ⟨admission_invalid s acc h, rfl⟩
  | true =>
    obtain ⟨⟨rfl, rfl⟩, rfl⟩ : (l = true ∧ o = true) ∧ c = true := by simpa using h
    rcases Bool.eq_false_or_eq_true s.busy with hb | hb
    · exact .inr (.inl ⟨admission_busy s acc hb, hb, rfl⟩)
    · exact .inr (.inr ⟨admission_accepts s acc hb, hb, rfl⟩)

/-- The request a transfer command latches. -/
def requestOf : Instr → Option Request
  | .configure _ _ => none
  | .registerCallback _ _ => none
  | .send tx => some (sendRequest .send tx)
  | .receive cmd rxLen => some (recvRequest .receive cmd rxLen 0)
  | .sendRecv cmd rxLen => some (recvRequest .sendRecv cmd rxLen cmd.length)
  | .sendRecvFd tx rxLen => some (duplexRequest tx rxLen)
  | .sendAsync tx => some (sendRequest .sendAsync tx)
  | .sendRecvAsync cmd rxLen => some (recvRequest .sendRecvAsync cmd rxLen cmd.length)

/-- The ways a command can end its step at the request port. -/
inductive ExecEnd (i : Instr) (s t : State) : Prop where
  | invalid (h : t = s.refuse .invalidParameter)
  | busy (hb : s.busy = true) (h : t = (s.withMask false).refuse .busy)
  | configured (ord : BitOrder) (cfg : Word) (hi : i = .configure ord cfg) (hb : s.busy = false)
      (h : t = ({ s with bitOrder := ord, cfgOpaque := cfg }.respond .ok []).withMask false)
  | registered (cbh udata : Word) (hi : i = .registerCallback cbh udata) (hb : s.busy = false)
      (h : t = ({ s with cbValid := true, cbHandle := cbh, cbUdata := udata }.respond .ok
        []).withMask false)
  | latched (q : Request) (hi : requestOf i = some q) (hwf : i.wf = true) (hb : s.busy = false)
      (ha : admissibleOperands i = true) (hc : callbackCondition i s.cbValid = true)
      (h : t = (s.latch q).withMask false)

/-- Every next state of a command is one of those ends. -/
theorem exec_cases {i : Instr} {s t : State} (h : exec i s = .next t) : ExecEnd i s t := by
  cases i with
  | configure ord cfg =>
    simp only [exec, execConfigure, Host.Outcome.next.injEq] at h
    obtain ⟨h', _⟩ | ⟨h', hb, _⟩ | ⟨h', hb, _⟩ := admission_cases s true true true fun t =>
      { t with bitOrder := ord, cfgOpaque := cfg }.respond .ok []
    · exact .invalid (h ▸ h')
    · exact .busy hb (h ▸ h')
    · exact .configured ord cfg rfl hb (h ▸ h')
  | registerCallback cbh udata =>
    simp only [exec, execRegisterCallback, Host.Outcome.next.injEq] at h
    obtain ⟨h', _⟩ | ⟨h', hb, _⟩ | ⟨h', hb, _⟩ := admission_cases s true (callbackOperandsOk cbh)
      true fun t => { t with cbValid := true, cbHandle := cbh, cbUdata := udata }.respond .ok []
    · exact .invalid (h ▸ h')
    · exact .busy hb (h ▸ h')
    · exact .registered cbh udata rfl hb (h ▸ h')
  | send tx =>
    simp only [exec, execSend, txCountable_eq] at h
    split at h
    · rename_i hw
      simp only [Host.Outcome.next.injEq] at h
      obtain ⟨h', _⟩ | ⟨h', hb, _⟩ | ⟨h', hb, ha⟩ := admission_cases s true (sendOperandsOk tx) true
        fun t => t.latch (sendRequest .send tx)
      · exact .invalid (h ▸ h')
      · exact .busy hb (h ▸ h')
      · exact .latched _ rfl hw hb (by simpa [admissibleOperands] using ha) rfl (h ▸ h')
    · cases h
  | receive cmd rxLen =>
    simp only [exec, execReceive, cmdLegal_eq, Host.Outcome.next.injEq] at h
    obtain ⟨h', _⟩ | ⟨h', hb, _⟩ | ⟨h', hb, ha⟩ := admission_cases s (cmdWf cmd)
      (receiveOperandsOk rxLen) true fun t => t.latch (recvRequest .receive cmd rxLen 0)
    · exact .invalid (h ▸ h')
    · exact .busy hb (h ▸ h')
    · simp only [Bool.and_eq_true] at ha
      exact .latched _ rfl ha.1.1 hb ha.1.2 rfl (h ▸ h')
  | sendRecv cmd rxLen =>
    simp only [exec, execSendRecv, cmdLegal_eq, Host.Outcome.next.injEq] at h
    obtain ⟨h', _⟩ | ⟨h', hb, _⟩ | ⟨h', hb, ha⟩ := admission_cases s (cmdWf cmd)
      (combinedOperandsOk cmd rxLen) true
      fun t => t.latch (recvRequest .sendRecv cmd rxLen cmd.length)
    · exact .invalid (h ▸ h')
    · exact .busy hb (h ▸ h')
    · simp only [Bool.and_eq_true] at ha
      exact .latched _ rfl ha.1.1 hb ha.1.2 rfl (h ▸ h')
  | sendRecvFd tx rxLen =>
    simp only [exec, execSendRecvFd, txCountable_eq] at h
    split at h
    · rename_i hw
      simp only [Host.Outcome.next.injEq] at h
      obtain ⟨h', _⟩ | ⟨h', hb, _⟩ | ⟨h', hb, ha⟩ := admission_cases s true
        (duplexOperandsOk tx rxLen) true fun t => t.latch (duplexRequest tx rxLen)
      · exact .invalid (h ▸ h')
      · exact .busy hb (h ▸ h')
      · exact .latched _ rfl hw hb (by simpa [admissibleOperands] using ha) rfl (h ▸ h')
    · cases h
  | sendAsync tx =>
    simp only [exec, execSendAsync, txCountable_eq] at h
    split at h
    · rename_i hw
      simp only [Host.Outcome.next.injEq] at h
      obtain ⟨h', _⟩ | ⟨h', hb, _⟩ | ⟨h', hb, ha⟩ := admission_cases s true (sendOperandsOk tx)
        s.cbValid fun t => t.latch (sendRequest .sendAsync tx)
      · exact .invalid (h ▸ h')
      · exact .busy hb (h ▸ h')
      · simp only [Bool.true_and, Bool.and_eq_true] at ha
        exact .latched _ rfl hw hb ha.1 (by simpa [callbackCondition, Instr.op, Op.isAsync] using ha.2)
          (h ▸ h')
    · cases h
  | sendRecvAsync cmd rxLen =>
    simp only [exec, execSendRecvAsync, cmdLegal_eq, Host.Outcome.next.injEq] at h
    obtain ⟨h', _⟩ | ⟨h', hb, _⟩ | ⟨h', hb, ha⟩ := admission_cases s (cmdWf cmd)
      (combinedOperandsOk cmd rxLen) s.cbValid
      fun t => t.latch (recvRequest .sendRecvAsync cmd rxLen cmd.length)
    · exact .invalid (h ▸ h')
    · exact .busy hb (h ▸ h')
    · simp only [Bool.and_eq_true] at ha
      exact .latched _ rfl ha.1.1 hb ha.1.2
        (by simpa [callbackCondition, Instr.op, Op.isAsync] using ha.2) (h ▸ h')

/-- A well-formed command always answers a next state. -/
theorem exec_next {i : Instr} (hwf : i.wf = true) (s : State) : ∃ t, exec i s = .next t := by
  cases i with
  | configure ord cfg => exact ⟨_, rfl⟩
  | registerCallback cbh udata => exact ⟨_, rfl⟩
  | send tx => exact ⟨_, if_pos ((txCountable_eq ..).trans hwf)⟩
  | receive cmd rxLen => exact ⟨_, rfl⟩
  | sendRecv cmd rxLen => exact ⟨_, rfl⟩
  | sendRecvFd tx rxLen => exact ⟨_, if_pos ((txCountable_eq ..).trans hwf)⟩
  | sendAsync tx => exact ⟨_, if_pos ((txCountable_eq ..).trans hwf)⟩
  | sendRecvAsync cmd rxLen => exact ⟨_, rfl⟩

end Sys2Proof.Machine
end

