-- ==== Sys2Proof/Laws/Codec.lean ====
section
/-! SUPPORT. When the codec's functions and the engine's uses of them have a value, and how long the
values are. -/

namespace Sys2Proof.Machine

theorem ceilDiv_four (n : Nat) : ceilDiv n 4 = (n + 3) / 4 := rfl

/-- A readback reads a quarter of its bytes in slots, rounded up (R160). -/
theorem readbackCount_eq (g : Config) (c : Chunk) : readbackCount g c = (c.rxN + 3) / 4 := by
  simp only [readbackCount, Config.slotBytes_eq, ceilDiv_four]

theorem slice_length {α : Type} (l : List α) (i j : Nat) :
    (slice l i j).length = min (j - i) (l.length - i) := by
  simp [slice]

theorem slice_length_le {α : Type} (l : List α) (i j : Nat) : (slice l i j).length ≤ j - i := by
  rw [slice_length]; omega

theorem packWord_some (c : Config)
    {b : List Byte} (h1 : 1 ≤ b.length) (h4 : b.length ≤ 4) (ord : BitOrder) :
    ∃ w, packWord c b ord = some w := by
  have h4' : b.length ≤ c.slotBytes := by simpa using h4
  cases ord <;> simp only [packWord, h1, h4', and_self, if_true] <;> exact ⟨_, rfl⟩

theorem unpackWord_some (c : Config)
    {k : Nat} (h1 : 1 ≤ k) (h4 : k ≤ 4) (w : Word) (ord : BitOrder) :
    unpackWord c w k ord = some ((List.range k).map fun j => wordByte w k j ord) := by
  have h4' : k ≤ c.slotBytes := by simpa using h4
  simp only [unpackWord, h1, h4', and_self, if_true]

/-- Packing `m` groups has a value where the bytes fill them, the last one at least partly. -/
theorem packGroups_some (c : Config) (ord : BitOrder) :
    ∀ (m : Nat) (b : List Byte), b.length ≤ 4 * m →
    4 * m < b.length + 4 → ∃ ws, packGroups c ord m b = some ws ∧ ws.length = m := by
  intro m
  induction m with
  | zero => intro b _ _; exact ⟨[], rfl, rfl⟩
  | succ m ih =>
    intro b hle hlt
    obtain ⟨w, hw⟩ := packWord_some c (b := b.take 4) (by simp; omega) (by simp) ord
    obtain ⟨ws, hws, hlen⟩ := ih (b.drop 4) (by simp; omega) (by simp; omega)
    exact ⟨w :: ws, by simp [packGroups, hw, hws], by simp [hlen]⟩

theorem packSlots_some (c : Config) {b : List Byte} (h : b.length ≤ 32) (ord : BitOrder) :
    ∃ ws, packSlots c b ord = some ws ∧ ws.length = ceilDiv b.length 4 := by
  have h' : b.length ≤ c.numSlots * c.slotBytes := by simpa using h
  obtain ⟨ws, hws, hlen⟩ := packGroups_some c ord (ceilDiv b.length 4) b
    (by rw [ceilDiv_four]; omega) (by rw [ceilDiv_four]; omega)
  exact ⟨ws, (if_pos h').trans (by rw [Config.slotBytes_eq]; exact hws), hlen⟩

theorem stage_some (c : Config) {b : List Byte} {m : Nat} (hb : b.length ≤ 4 * m) (hm : m ≤ 8)
    (ord : BitOrder) : ∃ ws, stage c b ord m = some ws ∧ ws.length = m := by
  obtain ⟨ps, hps, hlen⟩ := packSlots_some c (b := b) (by omega) ord
  have hle : ps.length ≤ m := by rw [hlen, ceilDiv_four]; omega
  refine ⟨ps ++ List.replicate (m - ps.length) 0, by simp [stage, hps, hle], ?_⟩
  simp; omega

/-- Unpacking has a value where the words suffice, and gives as many bytes as asked for. -/
theorem unpackGroups_some (c : Config) (ord : BitOrder) :
    ∀ (ws : List Word) (n : Nat), n ≤ 4 * ws.length →
    ∃ b, unpackGroups c ord ws n = some b ∧ b.length = n := by
  intro ws
  induction ws with
  | nil =>
    intro n h
    obtain rfl : n = 0 := by simpa using h
    exact ⟨[], rfl, rfl⟩
  | cons w ws ih =>
    intro n h
    match n with
    | 0 => exact ⟨[], rfl, rfl⟩
    | n + 1 =>
      obtain ⟨b, hb, hlen⟩ := ih (n + 1 - 4) (by simp at h ⊢; omega)
      have hw := unpackWord_some c (k := min 4 (n + 1)) (by omega) (by omega) w ord
      refine ⟨(List.range (min 4 (n + 1))).map (fun j => wordByte w (min 4 (n + 1)) j ord) ++ b,
        by simp only [unpackGroups, Config.slotBytes_eq, hw, hb], ?_⟩
      simp [hlen]; omega

theorem unpackSlots_some (c : Config) {ws : List Word} {n : Nat} (hn : n ≤ 32) (h : n ≤ 4 * ws.length)
    (ord : BitOrder) : ∃ b, unpackSlots c ws n ord = some b ∧ b.length = n := by
  have hn' : n ≤ c.numSlots * c.slotBytes := by simpa using hn
  obtain ⟨b, hb, hlen⟩ := unpackGroups_some c ord ws n h
  exact ⟨b, (if_pos hn').trans hb, hlen⟩

theorem fillRx_nil (buf : List (Option Byte)) (dst : Nat) : fillRx buf dst [] = buf := by
  simp [fillRx]

theorem fillRx_length {buf : List (Option Byte)} {dst : Nat} {b : List Byte}
    (h : dst + b.length ≤ buf.length) : (fillRx buf dst b).length = buf.length := by
  simp [fillRx]; omega

theorem opcodeWord_some (g : Config) {c : Chunk} (h : c.op.length ≤ 4) (ord : BitOrder) :
    ∃ w, opcodeWord g c ord = some w := by
  unfold opcodeWord
  split
  · exact packWord_some g (by omega) h ord
  · exact ⟨0, rfl⟩

theorem slotWord_some {g : Config} {c : Chunk} (hc : ChunkInDomain g c) {j : Nat} (h : j < c.stageM)
    (ord : BitOrder) : ∃ w, slotWord g c ord j = some w := by
  obtain ⟨ws, hws, hlen⟩ := stage_some g hc.txd_le hc.stage_le ord
  exact ⟨ws[j]'(by omega), by simp [slotWord, hws, hlen, h]⟩

/-- A chunk's readback that has read every slot it reads can be decoded. -/
theorem readback_unpacks {g : Config} {c : Chunk} (hc : ChunkInDomain g c) {ws : List Word}
    (h : readbackCount g c ≤ ws.length) (ord : BitOrder) :
    ∃ b, unpackSlots g ws c.rxN ord = some b ∧ b.length = c.rxN := by
  refine unpackSlots_some g hc.rx_le ?_ ord
  have := readbackCount_eq g c
  omega

end Sys2Proof.Machine
end

