-- ==== Sys2Proof/Laws/Plans.lean ====
section
/-! SUPPORT. Every chunk of every plan lies in the codec's domain and the slot banks, and the range
of its received bytes lies in the receive buffer. -/

namespace Sys2Proof.Machine

theorem hdSendKick_inDomain (c : Config) {op txd : List Byte} (cb db : Nat) (h1 : op.length ≤ 4)
    (h2 : txd.length ≤ 32) : ChunkInDomain c (hdSendKick c op txd cb db) := by
  refine ⟨h1, ?_, ?_, Nat.zero_le _, ?_⟩ <;> simp [hdSendKick, readbackCount_eq]
  exact h2

theorem hdSendChunk_inDomain (c : Config) (tx : List Byte) (n i : Nat) :
    ChunkInDomain c (hdSendChunk c tx n i) := by
  unfold hdSendChunk
  have hr : n % 28 < 28 := Nat.mod_lt _ (by decide)
  simp only [Config.hdSendStride_eq, Config.opcodeMax_eq, Config.hdSendData_eq]
  split
  · apply hdSendKick_inDomain <;> refine le_trans (slice_length_le _ _ _) ?_ <;> omega
  · split
    · apply hdSendKick_inDomain
      · refine le_trans (slice_length_le _ _ _) ?_; omega
      · simp
    · apply hdSendKick_inDomain <;> refine le_trans (slice_length_le _ _ _) ?_ <;> omega

theorem hdRecvBytes_le (c : Config) (n i : Nat) : hdRecvBytes c n i ≤ 32 := by
  have : n % 32 < 32 := Nat.mod_lt _ (by decide)
  simp only [hdRecvBytes, Config.hdRxChunk_eq]; split <;> omega

theorem hdRecvChunk_inDomain (c : Config) {cmd : List Byte} (h : cmd.length ≤ 4) (n d i : Nat) :
    ChunkInDomain c (hdRecvChunk c cmd n d i) := by
  have hb := hdRecvBytes_le c n i
  refine ⟨?_, Nat.zero_le _, Nat.zero_le _, hb, ?_⟩
  · simp only [hdRecvChunk, hdRecvOp]; split
    · exact h
    · simp
  · simp only [hdRecvChunk, readbackCount_eq]; omega

theorem fdBytes_le (c : Config) (n i : Nat) : fdBytes c n i ≤ 16 := by
  have : n % 16 < 16 := Nat.mod_lt _ (by decide)
  simp only [fdBytes, Config.fdChunk_eq]; split
  · omega
  · split <;> omega

theorem fdChunkAt_inDomain (c : Config) (tx : List Byte) (tl rl i : Nat) :
    ChunkInDomain c (fdChunkAt c tx tl rl i) := by
  have ht := fdBytes_le c tl i
  have hr := fdBytes_le c rl i
  refine ⟨?_, ?_, ?_, ?_, ?_⟩
  · refine le_trans (slice_length_le _ _ _) ?_; simp only [fdOpBytes, Config.opcodeMax_eq]; omega
  · refine le_trans (slice_length_le _ _ _) ?_; simp only [fdChunkAt, Config.fdSendSlots_eq]; omega
  · simp [fdChunkAt]
  · simp only [fdChunkAt]; omega
  · simp only [fdChunkAt, readbackCount_eq, Config.fdRxBase_eq]; omega

/-- Every chunk of a request with at most four command bytes is in the codec's domain. -/
theorem chunkOf_inDomain (c : Config) {x : Context} (h : x.cmd.length ≤ 4) (i : Nat) :
    ChunkInDomain c (chunkOf c x i) := by
  unfold chunkOf
  split
  · exact hdSendChunk_inDomain ..
  · exact hdSendChunk_inDomain ..
  · exact hdRecvChunk_inDomain c h ..
  · exact hdRecvChunk_inDomain c h ..
  · exact hdRecvChunk_inDomain c h ..
  · exact fdChunkAt_inDomain ..
  · exact hdRecvChunk_inDomain c (by simp) ..
  · exact hdRecvChunk_inDomain c (by simp) ..

/-- A request that met its conditions has at least one kick. -/
theorem planCount_pos (c : Config) {x : Context} (h : requestConditions x = true) :
    1 ≤ planCount c x.reqOp x.txLen.toNat x.rxLen.toNat x.rxBase.toNat := by
  have hs : ∀ n : Nat, 1 ≤ n → 1 ≤ hdSendCount c n := by
    intro n h; simp only [hdSendCount, Config.hdSendStride_eq]; split <;> omega
  have hr : ∀ n : Nat, 1 ≤ n → 1 ≤ hdRecvCount c n := by
    intro n h; simp only [hdRecvCount, Config.hdRxChunk_eq]; split <;> omega
  unfold requestConditions at h
  unfold planCount
  cases hop : x.reqOp <;> simp only [hop] at h ⊢ <;> simp at h
  · exact hs _ (by omega)
  · exact hr _ (by simp [h])
  · exact hr _ (by omega)
  · simp only [fdCount, ceilDiv, Config.fdChunk_eq]; omega
  · exact hs _ (by omega)
  · exact hr _ (by omega)

/-- The kicks of a request are fewer than its bytes, so their number fits 32 bits. -/
theorem planCount_lt (c : Config) (op : Op) {t r b : Nat} (ht : t < 2 ^ 32) (hr : r < 2 ^ 32) :
    planCount c op t r b < 2 ^ 32 := by
  unfold planCount
  cases op <;> simp only [hdSendCount, hdRecvCount, fdCount, ceilDiv, Config.hdSendStride_eq,
    Config.hdRxChunk_eq, Config.fdChunk_eq] <;> (try split) <;> omega

/-- The bytes a chunk of the plan reads back lie in the receive buffer. -/
theorem chunkOf_rx_in_buffer (c : Config) {x : Context} (h : requestConditions x = true) {i : Nat}
    (hi : i < planCount c x.reqOp x.txLen.toNat x.rxLen.toNat x.rxBase.toNat)
    (hpos : 0 < (chunkOf c x i).rxN) :
    (chunkOf c x i).rxDst + (chunkOf c x i).rxN ≤ x.rxLen.toNat := by
  have hrecv : ∀ n : Nat, i < hdRecvCount c n → 32 * i + hdRecvBytes c n i ≤ n := by
    intro n hi
    simp only [hdRecvCount, hdRecvBytes, Config.hdRxChunk_eq] at hi ⊢
    split at hi <;> split <;> omega
  have hfd : ∀ n : Nat, 0 < fdBytes c n i → 16 * i + fdBytes c n i ≤ n := by
    intro n hp
    simp only [fdBytes, Config.fdChunk_eq] at hp ⊢
    split at hp
    · rename_i h1; simp only [h1, if_true]; omega
    · rename_i h1; simp only [h1, if_false]; split at hp
      · rename_i h2; simp only [h2, if_true]; omega
      · omega
  unfold requestConditions at h
  unfold planCount at hi
  unfold chunkOf at hpos ⊢
  cases hop : x.reqOp <;> simp only [hop] at h hi hpos ⊢
  · exact absurd hi (by simp)
  · exact absurd hi (by simp)
  · simp only [hdSendChunk, hdSendKick]; split
    · simp
    · split <;> simp
  · have := hrecv _ hi; simp at h
    have h0 : x.rxBase.toNat = 0 := by simp [h.2]
    simp only [hdRecvChunk, Config.hdRxChunk_eq]; omega
  · have := hrecv _ hi; simp at h; simp only [hdRecvChunk, Config.hdRxChunk_eq]; omega
  · simpa only [fdChunkAt, Config.fdChunk_eq] using hfd _ hpos
  · simp only [hdSendChunk, hdSendKick]; split
    · simp
    · split <;> simp
  · have := hrecv _ hi; simp at h; simp only [hdRecvChunk, Config.hdRxChunk_eq]; omega

end Sys2Proof.Machine
end

