-- ==== Sys2Proof/Laws/Step.lean ====
section
/-! SUPPORT. What one step can do, said once: an input that is no command, a refused or executed
record, or a step of the block; and how runs of the block alone unfold. -/

namespace Sys2Proof.Machine

/-- The ways a step can come to its next state. -/
inductive StepCase (s t : State) : Prop where
  | block (u : State) (hu : u = s ∨ u = s.popInput) (hr : noReset s) (h : blockStep u = .next t)
  | illegal (r : Record) (rest : List Input) (hi : s.inputs = .command r :: rest)
      (h : t = s.popInput.refuse .invalidParameter)
  | command (r : Record) (rest : List Input) (i : Instr) (hi : s.inputs = .command r :: rest)
      (hd : decode r = .ok i) (h : exec i s.popInput = .next t)
  | pulse (rest : List Input) (hi : s.inputs = .irqPulse :: rest) (h : t = s.popInput.irqPulse)
  | ended (rest : List Input) (hi : s.inputs = .transferEnd :: rest)
      (h : t = s.popInput.transferEnd)
  | reset (rest : List Input) (hi : s.inputs = .reset :: rest) (h : t = s.popInput.hardReset)

/-- Inversion of `step`. -/
theorem step_cases {s t : State} (h : step s = .next t) : StepCase s t := by
  unfold step at h
  split at h
  · rename_i hi; exact .block s (.inl rfl) (by simp [noReset, hi]) h
  · rename_i hi; exact .block _ (.inr rfl) (by simp [noReset, hi]) h
  · rename_i r rest hi
    unfold takeRecord at h
    split at h
    · cases h
    · cases h; exact .illegal r rest hi rfl
    · cases h; exact .illegal r rest hi rfl
    · cases h; exact .illegal r rest hi rfl
    · cases h; exact .illegal r rest hi rfl
    · rename_i i hd; exact .command r rest i hi hd h
  · rename_i rest hi; cases h; exact .pulse rest hi rfl
  · rename_i rest hi; cases h; exact .ended rest hi rfl
  · rename_i rest hi; cases h; exact .reset rest hi rfl

/-- A block whose input stream is used up takes its own step. -/
theorem step_of_no_input {s : State} (h : s.inputs = []) : step s = blockStep s := by
  unfold step; rw [h]

theorem blockStep_run {s : State} (h : s.fsm = .run) : blockStep s = procStep s := by
  unfold blockStep; rw [h]

theorem blockStep_isr {s : State} (h : s.fsm = .isr) : blockStep s = procStep s := by
  unfold blockStep; rw [h]

theorem runSteps_zero (s : State) : runSteps 0 s = .next s := rfl

theorem runSteps_succ (n : Nat) (s : State) :
    runSteps (n + 1) s =
      match step s with
      | .next t => runSteps n t
      | .fault f => .fault f
      | .refused r => .refused r := by
  cases h : step s <;> simp only [runSteps, Host.Core.run] <;>
    rw [show Sys2Proof.core.step s = _ from h] <;> rfl

/-- A run's first step. -/
theorem runSteps_cons {s t : State} (h : step s = .next t) (n : Nat) :
    runSteps (n + 1) s = runSteps n t := by
  rw [runSteps_succ, h]

/-- Runs compose. -/
theorem runSteps_add {m : Nat} : ∀ {s t : State} (n : Nat), runSteps m s = .next t →
    runSteps (m + n) s = runSteps n t := by
  induction m with
  | zero => intro s t n h; cases h; simp
  | succ m ih =>
    intro s t n h
    rw [runSteps_succ] at h
    rw [Nat.succ_add, runSteps_succ]
    cases hs : step s with
    | next u => rw [hs] at h; exact ih n h
    | fault f => rw [hs] at h; cases h
    | refused r => rw [hs] at h; cases h

end Sys2Proof.Machine
end

