-- ==== Sys2Proof/Laws/Engine.lean ====
section
/-! SUPPORT. The block's own step at each position of a procedure, said once, so that a run is
rewritten position by position and nothing below it is unfolded. -/

namespace Sys2Proof.Machine

/-! ### Counters -/

theorem counter_succ_toNat {a b : Word} (h : a.toNat < b.toNat) : (a + 1).toNat = a.toNat + 1 := by
  have := b.isLt
  rw [BitVec.toNat_add, show (1 : Word).toNat = 1 from rfl]
  omega

/-! ### A step of a running procedure -/

/-- A running block with no input left steps by its procedure. -/
theorem step_of_running {s : State} (hi : s.inputs = []) (hf : s.fsm = .run ∨ s.fsm = .isr) :
    step s = procStep s := by
  rw [step_of_no_input hi]
  rcases hf with hf | hf
  · exact blockStep_run hf
  · exact blockStep_isr hf

theorem procStep_csAssert {s : State} (h : s.pos = .csAssert) :
    procStep s = .next { s.setCs .asserted with pos := .wOpcode } := by
  unfold procStep; rw [h]

theorem procStep_wOpcode {s : State} (h : s.pos = .wOpcode) : procStep s = stepOpcode s := by
  unfold procStep; rw [h]

theorem procStep_wData {s : State} {j : Fin 8} (h : s.pos = .wData j) :
    procStep s = stepData s j := by
  unfold procStep; rw [h]

theorem procStep_wMblen {s : State} (h : s.pos = .wMblen) :
    procStep s = .next (stepMblen s) := by
  unfold procStep; rw [h]

theorem procStep_sMode {s : State} (h : s.pos = .sMode) : procStep s = .next (stepMode s) := by
  unfold procStep; rw [h]

theorem procStep_sStart {s : State} (h : s.pos = .sStart) :
    procStep s = .next (stepStart s) := by
  unfold procStep; rw [h]

theorem procStep_poll {s : State} (h : s.pos = .poll) : procStep s = .next (stepPoll s) := by
  unfold procStep; rw [h]

theorem procStep_cMode {s : State} {p : Option Word} (h : s.pos = .cMode p) :
    procStep s = .next (stepClear s p) := by
  unfold procStep; rw [h]

theorem procStep_readback {s : State} {j : Nat} {w : List Word} (h : s.pos = .readback j w) :
    procStep s = stepReadback s j w := by
  unfold procStep; rw [h]

theorem procStep_finishCs {s : State} (h : s.pos = .finishCs) :
    procStep s = .next { s.setCs .deasserted with pos := .finishRespond } := by
  unfold procStep; rw [h]

theorem procStep_finishRespond {s : State} (h : s.pos = .finishRespond) :
    procStep s = .next (s.endPoll .ok) := by
  unfold procStep; rw [h]

theorem procStep_abortCs {s : State} {st : Status} (h : s.pos = .abortCs st) :
    procStep s = .next { s.setCs .deasserted with pos := .abortRespond st } := by
  unfold procStep; rw [h]

theorem procStep_abortRespond {s : State} {st : Status} (h : s.pos = .abortRespond st) :
    procStep s = .next (s.endPoll st) := by
  unfold procStep; rw [h]

theorem procStep_acceptRespond {s : State} (h : s.pos = .acceptRespond) :
    procStep s = .next (s.toWaitIrq.respond .ok []) := by
  unfold procStep; rw [h]

theorem procStep_isrClear {s : State} (h : s.pos = .isrClear) :
    procStep s = .next { s.busClear .ctrl s.config.mbEn with pos := .isrStatus } := by
  unfold procStep; rw [h]

theorem procStep_isrStatus {s : State} (h : s.pos = .isrStatus) :
    procStep s = .next ((s.busRead .status).afterIsrStatus (s.readValue .status)) := by
  unfold procStep; rw [h]

theorem procStep_finishAsyncCs {s : State} (h : s.pos = .finishAsyncCs) :
    procStep s = .next { s.setCs .deasserted with pos := .finishAsyncEmit } := by
  unfold procStep; rw [h]

theorem procStep_finishAsyncEmit {s : State} (h : s.pos = .finishAsyncEmit) :
    procStep s = .next (s.endAsync .finished) := by
  unfold procStep; rw [h]

theorem procStep_abortAsyncCs {s : State} (h : s.pos = .abortAsyncCs) :
    procStep s = .next { s.setCs .deasserted with pos := .abortAsyncEmit } := by
  unfold procStep; rw [h]

theorem procStep_abortAsyncEmit {s : State} (h : s.pos = .abortAsyncEmit) :
    procStep s = .next (s.endAsync .error) := by
  unfold procStep; rw [h]

/-! ### The shared operations -/

/-- A change of chip-select emits its level. -/
theorem setCs_of_ne {s : State} {x : CsState} (h : s.csState ≠ x) :
    s.setCs x = { s with csState := x, trace := s.trace ++ [.cs (csLevel s.config x)] } := by
  unfold State.setCs; rw [if_neg h]

/-- A write of chip-select that changes nothing emits nothing. -/
theorem setCs_of_eq {s : State} {x : CsState} (h : s.csState = x) : s.setCs x = s := by
  subst h; unfold State.setCs; rw [if_pos rfl]

/-- Under the oracle controller a read takes the next listed answer. -/
theorem oracle_read {s : State} {v : Word} {rest : List Word} (hc : s.controller = .oracle)
    (ha : s.answers = v :: rest) (r : Reg) :
    s.readValue r = v ∧
      s.busRead r = { s with answers := rest, trace := s.trace ++ [.read r v] } := by
  have hv : s.readValue r = v := by
    unfold State.readValue State.oracleValue; rw [hc, ha]
  have hd : s.readDraws r = true := by unfold State.readDraws; rw [hc]
  refine ⟨hv, ?_⟩
  unfold State.busRead
  rw [hv, hd, ha]
  rfl

/-- The chunk in progress depends on the configuration, the context and the chunk index alone. -/
theorem chunk_congr {s t : State} (hg : t.config = s.config) (hx : t.ctx = s.ctx)
    (hc : t.ci = s.ci) : t.chunk = s.chunk := by
  unfold State.chunk; rw [hg, hx, hc]

/-- The receive buffer does not enter a chunk. -/
theorem chunkOf_rxBuf (c : Config) (x : Context) (b : List (Option Byte)) (i : Nat) :
    chunkOf c { x with rxBuf := b } i = chunkOf c x i := rfl

/-- While a request holds the controller its chunk is in the codec's domain. -/
theorem chunk_inDomain {s : State} (h : s.Inv) (hb : s.busy = true) : ChunkInDomain s.config s.chunk :=
  chunkOf_inDomain _ (h.request hb).context.cmd_le _

/-- A block that is not idle is busy. -/
theorem busy_of_not_idle {s : State} (h : s.Inv) (hf : s.fsm ≠ .idle) : s.busy = true := by
  cases hb : s.busy
  · exact absurd (h.busy_iff.mp hb) hf
  · rfl

end Sys2Proof.Machine
end

