-- ==== Sys2Proof/Laws/Frame.lean ====
section
/-! SUPPORT. The frame of the register-bus operations, said once: what no write, set, clear or read
changes, with its composition over a run. -/

namespace Sys2Proof.Machine

/-- What the register-bus operations leave as it is. -/
structure BusFrame (s t : State) : Prop where
  inputs : t.inputs = s.inputs
  fsm : t.fsm = s.fsm
  ctx : t.ctx = s.ctx
  ci : t.ci = s.ci
  busy : t.busy = s.busy
  csState : t.csState = s.csState
  completedCount : t.completedCount = s.completedCount
  config : t.config = s.config
  totalChunks : t.totalChunks = s.totalChunks
  cbHandle : t.cbHandle = s.cbHandle
  cbUdata : t.cbUdata = s.cbUdata
  oracle : s.controller = .oracle → t.controller = .oracle

theorem BusFrame.trans {s t u : State} (h : BusFrame s t) (g : BusFrame t u) : BusFrame s u :=
  ⟨g.inputs.trans h.inputs, g.fsm.trans h.fsm, g.ctx.trans h.ctx, g.ci.trans h.ci,
    g.busy.trans h.busy, g.csState.trans h.csState, g.completedCount.trans h.completedCount,
    g.config.trans h.config, g.totalChunks.trans h.totalChunks, g.cbHandle.trans h.cbHandle,
    g.cbUdata.trans h.cbUdata, fun x => g.oracle (h.oracle x)⟩

theorem BusFrame.chunk {s t : State} (h : BusFrame s t) : t.chunk = s.chunk :=
  chunk_congr h.config h.ctx h.ci

theorem BusFrame.running {s t : State} (h : BusFrame s t) (hf : s.fsm = .run ∨ s.fsm = .isr) :
    t.fsm = .run ∨ t.fsm = .isr := by
  rw [h.fsm]; exact hf

theorem BusFrame.no_input {s t : State} (h : BusFrame s t) (hi : s.inputs = []) :
    t.inputs = [] := h.inputs.trans hi

theorem busWrite_frame (s : State) (r : Reg) (v : Word) (p : Pos) :
    BusFrame s { s.busWrite r v with pos := p } :=
  ⟨rfl, rfl, rfl, rfl, rfl, rfl, rfl, rfl, rfl, rfl, rfl, fun h => by simp [State.busWrite, h]⟩

theorem stepMblen_frame (s : State) : BusFrame s (stepMblen s) :=
  ⟨rfl, rfl, rfl, rfl, rfl, rfl, rfl, rfl, rfl, rfl, rfl,
    fun h => by simp [stepMblen, State.busWriteLength, h]⟩

theorem stepMode_frame (s : State) : BusFrame s (stepMode s) :=
  ⟨rfl, rfl, rfl, rfl, rfl, rfl, rfl, rfl, rfl, rfl, rfl,
    fun h => by simp [stepMode, State.busSet, h]⟩

theorem busSet_frame (s : State) (r : Reg) (m : Word) : BusFrame s (s.busSet r m) :=
  ⟨rfl, rfl, rfl, rfl, rfl, rfl, rfl, rfl, rfl, rfl, rfl, fun h => by simp [State.busSet, h]⟩

theorem busClear_frame (s : State) (r : Reg) (m : Word) : BusFrame s (s.busClear r m) :=
  ⟨rfl, rfl, rfl, rfl, rfl, rfl, rfl, rfl, rfl, rfl, rfl, fun h => by simp [State.busClear, h]⟩

theorem busRead_frame (s : State) (r : Reg) (p : Pos) :
    BusFrame s { s.busRead r with pos := p } :=
  ⟨rfl, rfl, rfl, rfl, rfl, rfl, rfl, rfl, rfl, rfl, rfl, fun h => h⟩

theorem stepPoll_frame (s : State) : BusFrame s (stepPoll s) :=
  ⟨rfl, rfl, rfl, rfl, rfl, rfl, rfl, rfl, rfl, rfl, rfl, fun h => h⟩

/-- The position after a status read of `poll`. -/
theorem stepPoll_pos (s : State) :
    (stepPoll s).pos =
      if !statusBusy s.config (s.readValue .status) then .cMode (some (s.readValue .status))
      else if s.config.pollBudget ≤ (s.pollCnt + 1).toNat then .cMode none
      else .poll := rfl

end Sys2Proof.Machine
end

