-- ==== Sys2Proof/Laws/Invariant.lean ====
section
/-! SUPPORT. The invariant under the shared operations: it depends on twelve fields alone, it survives
a change of position that fits, and the latch of an admitted request establishes it. -/

namespace Sys2Proof.Machine

/-- The invariant depends on these fields alone. -/
theorem inv_congr {s t : State} (h : s.Inv) (hbusy : t.busy = s.busy)
    (hmask : t.irqMask = s.irqMask) (hfsm : t.fsm = s.fsm) (hctx : t.ctx = s.ctx)
    (hpos : t.pos = s.pos) (hcs : t.csState = s.csState) (hpoll : t.pollCnt = s.pollCnt)
    (hcfg : t.config = s.config) (hci : t.ci = s.ci) (htot : t.totalChunks = s.totalChunks)
    (hcnt : t.completedCount = s.completedCount) (hcb : t.cbValid = s.cbValid) : t.Inv := by
  have hch : t.chunk = s.chunk := chunk_congr hcfg hctx hci
  constructor
  · rw [hbusy, hfsm]; exact h.busy_iff
  · rw [hmask]; exact h.mask
  · rw [hfsm, hctx, hpos]; exact h.fits
  · rw [hfsm, hpos, hcs]; exact h.cs
  · rw [hpoll, hcfg]; exact h.poll_le
  · rw [hci, htot]; exact h.ci_le
  · have := h.locals
    simp only [posLocals, hpos, hpoll, hcfg, hch] at this ⊢
    exact this
  · rw [hbusy, hcnt]; exact h.idle_count
  · rw [hbusy]
    intro hb
    have r := h.request hb
    constructor
    · rw [hctx]; exact r.context
    · rw [htot, hctx, hcfg]; exact r.total
    · have := r.counters
      simp only [countersAt, hctx, hpos, hci, htot, hcnt] at this ⊢
      exact this
    · rw [hpos, hci]; exact r.first
    · rw [hctx, hcb]; exact r.callback

/-- A step within the same sequencer state keeps the invariant where the new position fits it. -/
theorem inv_move {s t : State} (h : s.Inv) (p : Pos) (hp : t.pos = p) (hbusy : t.busy = s.busy)
    (hmask : t.irqMask = s.irqMask) (hfsm : t.fsm = s.fsm) (hctx : t.ctx = s.ctx)
    (hcfg : t.config = s.config) (hci : t.ci = s.ci) (htot : t.totalChunks = s.totalChunks)
    (hcnt : t.completedCount = s.completedCount) (hcb : t.cbValid = s.cbValid)
    (hfit : posFits s.fsm s.ctx.reqOp.isAsync p = true) (hcs : t.csState = csFor s.fsm p)
    (hpoll : t.pollCnt.toNat ≤ s.config.pollBudget) (hl : posLocals t p)
    (hc : s.busy = true → countersAt t p) (hne : p ≠ .csAssert) : t.Inv := by
  subst hp
  constructor
  · rw [hbusy, hfsm]; exact h.busy_iff
  · rw [hmask]; exact h.mask
  · rw [hfsm, hctx]; exact hfit
  · rw [hfsm]; exact hcs
  · rw [hcfg]; exact hpoll
  · rw [hci, htot]; exact h.ci_le
  · exact hl
  · rw [hbusy, hcnt]; exact h.idle_count
  · rw [hbusy]
    intro hb
    have r := h.request hb
    constructor
    · rw [hctx]; exact r.context
    · rw [htot, hctx, hcfg]; exact r.total
    · exact hc hb
    · intro hx; exact absurd hx hne
    · rw [hctx, hcb]; exact r.callback

/-- What an admitted transfer command's request satisfies. -/
theorem requestOf_fits {i : Instr} {q : Request} {s : State} (hi : requestOf i = some q)
    (hwf : i.wf = true) (ha : admissibleOperands i = true)
    (hc : callbackCondition i s.cbValid = true) :
    q.cmd.length ≤ 4 ∧ q.tx.length < 2 ^ 32 ∧ q.rxBase ≤ 4 ∧
      requestConditions (q.context s.bitOrder) = true ∧
      q.chunks s.config = planCount s.config q.op q.tx.length q.rxLen.toNat q.rxBase ∧
      (q.op.isAsync = true → s.cbValid = true) := by
  cases i <;> simp [requestOf] at hi <;> subst hi <;>
    simp [Instr.wf, cmdWf, txWf, admissibleOperands, sendOperandsOk, receiveOperandsOk,
      combinedOperandsOk, duplexOperandsOk, callbackCondition, Instr.op] at hwf ha hc <;>
    simp [sendRequest, recvRequest, duplexRequest, requestConditions, Request.context,
      Request.chunks, Op.isAsync] <;>
    (try simp_all [Op.isAsync]) <;> (try refine ⟨?_, ?_⟩) <;> (try omega)

/-- The latch of an admitted request establishes the invariant. -/
theorem latch_inv {s : State} (h : s.Inv) {i : Instr} {q : Request} (hi : requestOf i = some q)
    (hwf : i.wf = true) (hb : s.busy = false) (ha : admissibleOperands i = true)
    (hc : callbackCondition i s.cbValid = true) : ((s.latch q).withMask false).Inv := by
  obtain ⟨f1, f2, f3, f4, f5, f6⟩ := requestOf_fits hi hwf ha hc
  have hcount : planCount s.config q.op q.tx.length q.rxLen.toNat q.rxBase < 2 ^ 32 :=
    planCount_lt s.config _ f2 q.rxLen.isLt
  have hpos := planCount_pos s.config f4
  have e0 : (BitVec.ofNat 3 q.cmd.length).toNat = q.cmd.length := by simp; omega
  have e1 : (BitVec.ofNat 32 q.tx.length).toNat = q.tx.length := by simp; omega
  have e2 : (BitVec.ofNat 32 q.rxBase).toNat = q.rxBase := by simp; omega
  have e3 : (BitVec.ofNat 32 (q.chunks s.config)).toNat = q.chunks s.config := by rw [f5]; simp; omega
  simp only [Request.context, e1, e2] at hpos
  constructor
  · simp
  · simp
  · simp [posFits]
  · simp [csFor]
    have := h.cs
    rw [h.busy_iff.mp hb] at this
    exact this
  · simpa using h.poll_le
  · simp
  · simp [posLocals]
  · simp
  · intro _
    constructor
    · constructor
      · simp only [State.withMask_ctx, State.latch_ctx, Request.context]
        exact e0.symm
      · exact f1
      · simp only [State.withMask_ctx, State.latch_ctx, Request.context]
        exact e1.symm
      · simp [Request.context]
      · exact f4
    · simp only [State.withMask_ctx, State.latch_ctx, State.withMask_totalChunks,
        State.latch_totalChunks, Request.context, e1, e2, e3]
      exact f5
    · simp only [State.withMask_pos, State.latch_pos, countersAt, State.withMask_ci,
        State.latch_ci, State.withMask_totalChunks, State.latch_totalChunks, e3,
        State.withMask_completedCount, State.latch_completedCount]
      rw [f5]
      constructor
      · simp; omega
      · split <;> rfl
    · intro _; rfl
    · exact f6

end Sys2Proof.Machine
end

