-- ==== Sys2Proof/Laws/PerInstr.lean ====
section
/-! SUPPORT. The per-instruction family: the OP field of a command's encoded word is its selector's
value (R105, R106). -/

/-- The encoded word of a command carries its OP value. -/
def Sys2Proof.Laws.OpField.Statement (i : Sys2Proof.Instr) : Prop :=
  Sys2Proof.cwOp (Sys2Proof.encode i).cw = i.op.code

namespace Sys2Proof.Laws.OpField

theorem mkCw_op (o : Op) (l : BitVec 3) (b : BitVec 1) : cwOp (mkCw o l b) = o.code := by
  unfold cwOp mkCw
  generalize o.code = c
  revert c l b
  decide

theorem configure (ord : BitOrder) (cfg : Word) : Statement (.configure ord cfg) :=
  mkCw_op ..

theorem registerCallback (cbh udata : Word) : Statement (.registerCallback cbh udata) :=
  mkCw_op ..

theorem send (tx : List Byte) : Statement (.send tx) := mkCw_op ..

theorem receive (cmd : List Byte) (rxLen : Word) : Statement (.receive cmd rxLen) := mkCw_op ..

theorem sendRecv (cmd : List Byte) (rxLen : Word) : Statement (.sendRecv cmd rxLen) := mkCw_op ..

theorem sendRecvFd (tx : List Byte) (rxLen : Word) : Statement (.sendRecvFd tx rxLen) :=
  mkCw_op ..

theorem sendAsync (tx : List Byte) : Statement (.sendAsync tx) := mkCw_op ..

theorem sendRecvAsync (cmd : List Byte) (rxLen : Word) : Statement (.sendRecvAsync cmd rxLen) :=
  mkCw_op ..

end Sys2Proof.Laws.OpField
end

