-- ==== Sys2Proof/Tests/Slice0.lean ====
section
/-! SUPPORT. The model's own tests: ill-formed terms the checks refuse, words written out from the
spec's encodings, vectors of 95_test_vectors.md, single steps, and for every statement with
hypotheses a state and operands that meet them all together. -/

namespace Sys2Proof.Tests

open Sys2Proof Sys2Proof.Machine

/-! ### Helpers -/

/-- The reset state of a block whose open parameters are the sample's. -/
def idle : State := { State.reset with config := Config.sample }

/-- The same block with a registered callback. -/
def idleCb : State := { idle with cbValid := true, cbHandle := 1, cbUdata := 0xCAFE0000 }

/-- A block that has admitted a request and is about to assert chip-select. -/
def admitted (q : Request) : State := (idleCb.latch q).withMask false

/-- A running request at a position, with chip-select asserted and read answers to come. -/
def at_ (q : Request) (fsm : Fsm) (pos : Pos) (answers : List Word) : State :=
  { admitted q with fsm := fsm, pos := pos, csState := .asserted, answers := answers }

/-- A block behind the reference controller with no transfer in progress. -/
def refController : RefController where
  ctrl := 0
  opcode := 0
  data := Vector.replicate 8 0
  mblen := 0
  cmdBits := 8
  dataBits := 0
  dir := .tx
  kick := none
  irqReady := false
  slave := []
  wire := []

/-- A record with only a command word. -/
def wordRecord (cw : Word) : Record := { Record.zero with cw := cw }

/-- The events a step adds, none where it stops. -/
def stepEvents (s : State) : List Event :=
  match step s with
  | .next t => t.trace.drop s.trace.length
  | .fault _ => []
  | .refused _ => []

/-- A field of the state after a step, `d` where the step stops. -/
def after {α : Type} (s : State) (f : State → α) (d : α) : α :=
  match step s with
  | .next t => f t
  | .fault _ => d
  | .refused _ => d

/-- The same for a command's own step. -/
def afterExec {α : Type} (i : Instr) (s : State) (f : State → α) (d : α) : α :=
  match exec i s with
  | .next t => f t
  | .fault _ => d
  | .refused _ => d

/-! ### Ill-formed terms -/

theorem test_wf_refuses_five_command_bytes :
    Instr.wf (.receive [1, 2, 3, 4, 5] 1) = false ∧ Instr.wf (.sendRecv [1, 2, 3, 4, 5] 9) = false ∧
      Instr.wf (.sendRecvAsync [1, 2, 3, 4, 5] 9) = false ∧
      Instr.wf (.receive [1, 2, 3, 4] 1) = true := by decide

theorem test_wf_refuses_uncountable_send (n : Nat) (h : 2 ^ 32 ≤ n) :
    Instr.wf (.send (List.replicate n 0)) = false ∧
      Instr.wf (.sendRecvFd (List.replicate n 0) 0) = false ∧
      Instr.wf (.sendAsync (List.replicate n 0)) = false := by
  simpa [Instr.wf, txWf] using h

theorem test_record_wf_refuses_wrong_txlen :
    Record.wf { Record.zero with txlen := 2, tx := [1] } = false ∧
      Record.wf { Record.zero with txlen := 1, tx := [1] } = true := by decide

/-! ### Words written out from R106, with the records of the programs P1 to P6 -/

theorem test_decode_configure :
    decode { Record.zero with cw := 0b00000000000000000000000010000001, cfg := 7 } =
      .ok (.configure .lsbFirst 7) ∧
    decode (wordRecord 0b00000000000000000000000000000001) = .ok (.configure .msbFirst 0) :=
  ⟨rfl, rfl⟩

theorem test_decode_register_callback :
    decode { Record.zero with
      cw := 0b00000000000000000000000000000010, cbh := 1, udata := 0xCAFE0000 } =
      .ok (.registerCallback 1 0xCAFE0000) := rfl

theorem test_decode_send :
    decode { Record.zero with
      cw := 0b00000000000000000000000000000011, txlen := 6, tx := [1, 2, 3, 4, 5, 6] } =
      .ok (.send [1, 2, 3, 4, 5, 6]) := rfl

theorem test_decode_receive :
    decode { Record.zero with
      cw := 0b00000000000000000000000000100100, cmdb := 0x0000000B, rxlen := 6 } =
      .ok (.receive [0x0B, 0x00] 6) ∧
    decode { Record.zero with cw := 0x14, cmdb := 0xFFFFFF03, rxlen := 40 } =
      .ok (.receive [0x03] 40) := ⟨rfl, rfl⟩

theorem test_decode_send_recv :
    decode { Record.zero with
      cw := 0b00000000000000000000000001000101, cmdb := 0x44332211, rxlen := 9 } =
      .ok (.sendRecv [0x11, 0x22, 0x33, 0x44] 9) := rfl

theorem test_decode_send_recv_fd :
    decode { Record.zero with
      cw := 0b00000000000000000000000000000110, txlen := 3, tx := [0, 1, 2], rxlen := 8 } =
      .ok (.sendRecvFd [0, 1, 2] 8) := rfl

theorem test_decode_send_async :
    decode { Record.zero with
      cw := 0b00000000000000000000000000000111, txlen := 1, tx := [6] } =
      .ok (.sendAsync [6]) := rfl

theorem test_decode_send_recv_async :
    decode { Record.zero with
      cw := 0b00000000000000000000000000011000, cmdb := 0x9F, rxlen := 4 } =
      .ok (.sendRecvAsync [0x9F] 4) := rfl

/-- R107: each reason by its name. -/
theorem test_decode_illegal :
    decode (wordRecord 0x00000000) = .error .reservedOp ∧
    decode (wordRecord 0x0000000F) = .error .reservedOp ∧
    decode (wordRecord 0x00000103) = .error .reservedBits ∧
    decode (wordRecord 0x00000083) = .error .badOrd ∧
    decode (wordRecord 0x00000054) = .error .badCmdLen ∧
    decode (wordRecord 0x00000013) = .error .badCmdLen := ⟨rfl, rfl, rfl, rfl, rfl, rfl⟩

/-- The rows of R106 overlap nowhere: where two masks both keep a bit, some such bit differs. -/
theorem test_rows_disjoint :
    opcodeRows.Pairwise fun a b => a.2.1 &&& b.2.2 ≠ b.2.1 &&& a.2.2 := by decide

/-! ### The codec (V1 to V14, S1, S2) -/

theorem test_pack_word_vectors :
    packWord Config.sample [0x11, 0x22, 0x33] .msbFirst = some 0x00112233 ∧
    packWord Config.sample [0x11, 0x22, 0x33] .lsbFirst = some 0x00332211 ∧
    packWord Config.sample [0x5A] .msbFirst = some 0x5A ∧ packWord Config.sample [0x5A] .lsbFirst = some 0x5A ∧
    packWord Config.sample [1, 2, 3, 4] .msbFirst = some 0x01020304 ∧
    packWord Config.sample [1, 2, 3, 4] .lsbFirst = some 0x04030201 ∧
    packWord Config.sample [0xAB, 0xCD] .lsbFirst = some 0x0000CDAB ∧
    packWord Config.sample [] .msbFirst = none ∧ packWord Config.sample [1, 2, 3, 4, 5] .lsbFirst = none := by decide

theorem test_unpack_word_vectors :
    unpackWord Config.sample 0xAABBCCDD 2 .msbFirst = some [0xCC, 0xDD] ∧
    unpackWord Config.sample 0xAABBCCDD 2 .lsbFirst = some [0xDD, 0xCC] ∧
    unpackWord Config.sample 0xAABBCCDD 4 .msbFirst = some [0xAA, 0xBB, 0xCC, 0xDD] ∧
    unpackWord Config.sample 0xAABBCCDD 0 .msbFirst = none ∧ unpackWord Config.sample 0xAABBCCDD 5 .lsbFirst = none := by
  decide

theorem test_slots_vectors :
    packSlots Config.sample [1, 2, 3, 4, 5, 6] .msbFirst = some [0x01020304, 0x00000506] ∧
    packSlots Config.sample [1, 2, 3, 4, 5, 6] .lsbFirst = some [0x04030201, 0x00000605] ∧
    packSlots Config.sample [] .msbFirst = some [] ∧
    stage Config.sample [1, 2, 3, 4, 5, 6] .msbFirst 8 =
      some [0x01020304, 0x00000506, 0, 0, 0, 0, 0, 0] ∧
    unpackSlots Config.sample [0x04030201, 0x00000605] 6 .lsbFirst = some [1, 2, 3, 4, 5, 6] ∧
    unpackSlots Config.sample [0xFFFFFFFF] 1 .msbFirst = some [0xFF] ∧ unpackSlots Config.sample [] 0 .msbFirst = some [] := by
  decide

/-! ### The chunk plans (V20 to V48) -/

/-- A chunk as the vectors of section 2.2 write it. -/
def shape (c : Chunk) : Nat × Nat × Nat × Nat :=
  (c.cmdBits, c.dataBits, c.op.length, c.txd.length)

theorem test_send_plan_30 :
    hdSendCount Config.sample 30 = 2 ∧
    shape (hdSendChunk Config.sample (List.replicate 30 0) 30 0) = (32, 192, 4, 24) ∧
    shape (hdSendChunk Config.sample (List.replicate 30 0) 30 1) = (16, 0, 2, 0) := by decide

theorem test_send_plan_counts :
    [1, 4, 5, 28, 29, 32, 33, 40, 56, 84].map (hdSendCount Config.sample) = [1, 1, 1, 1, 2, 2, 2, 2, 2, 3] ∧
    shape (hdSendChunk Config.sample (List.replicate 5 0) 5 0) = (32, 8, 4, 1) ∧
    shape (hdSendChunk Config.sample (List.replicate 33 0) 33 1) = (32, 8, 4, 1) := by decide

theorem test_receive_plan_33 :
    hdRecvCount Config.sample 33 = 2 ∧ (hdRecvChunk Config.sample [3] 33 0 0).rxN = 32 ∧
    (hdRecvChunk Config.sample [3] 33 0 1).rxN = 1 ∧
    (hdRecvChunk Config.sample [3] 33 0 1).rxDst = 32 ∧
    (hdRecvChunk Config.sample [3] 33 0 1).cmdBits = 0 := by decide

theorem test_full_duplex_plan_17_33 :
    fdCount Config.sample 17 33 = 3 ∧ fdLoopCount Config.sample 32 5 = 3 ∧ fdCount Config.sample 32 5 = 2 ∧ fdCount Config.sample 0 0 = 0 ∧
    shape (fdChunkAt Config.sample (List.replicate 17 0) 17 33 1) = (8, 120, 1, 0) ∧
    (fdChunkAt Config.sample (List.replicate 17 0) 17 33 2).rxDst = 32 := by decide

/-! ### The commands, one step each -/

/-- R260's example. -/
theorem test_configure_sets_lsb :
    afterExec (.configure .lsbFirst 0) idle (fun t => (t.bitOrder, t.busy)) (.msbFirst, true) =
      (.lsbFirst, false) := by decide

/-- V54. -/
theorem test_configure_busy :
    afterExec (.configure .lsbFirst 0) { idle with busy := true }
      (fun t => (t.bitOrder, t.trace)) (.lsbFirst, []) =
      (.msbFirst, [.respond .busy []]) := by decide

/-- R262's example. -/
theorem test_register_callback :
    afterExec (.registerCallback 1 0xCAFE0000) idle (fun t => (t.cbValid, t.cbHandle, t.cbUdata))
      (false, 0, 0) = (true, 1, 0xCAFE0000) := by decide

theorem test_register_null_callback :
    afterExec (.registerCallback 0 5) idle (fun t => (t.cbValid, t.trace)) (true, []) =
      (false, [.respond .invalidParameter []]) := by decide

/-- V20. -/
theorem test_send_nothing :
    afterExec (.send []) idle (fun t => t.trace) [] = [.respond .invalidParameter []] := by decide

theorem test_send_30_has_two_chunks :
    afterExec (.send (List.replicate 30 0)) idle (fun t => (t.totalChunks, t.fsm, t.trace))
      (0, .idle, []) = (2, .run, []) := by decide

/-- V35. -/
theorem test_receive_33_has_two_chunks :
    afterExec (.receive [3] 33) idle (fun t => (t.totalChunks, t.ctx.rxBase)) (0, 9) = (2, 0) := by
  decide

/-- V39. -/
theorem test_send_recv_mismatch :
    afterExec (.sendRecv [0x9F, 0] 2) idle (fun t => t.trace) [] =
      [.respond .invalidParameter []] := by decide

/-- V38. -/
theorem test_send_recv_base :
    afterExec (.sendRecv [0x9F] 4) idle (fun t => (t.ctx.rxBase, t.ctx.rxBuf)) (0, []) =
      (1, [none, none, none, none]) := by decide

/-- V48. -/
theorem test_full_duplex_nothing :
    afterExec (.sendRecvFd [] 0) idle (fun t => t.trace) [] =
      [.respond .invalidParameter []] := by decide

/-- P4. -/
theorem test_full_duplex_20_4 :
    afterExec (.sendRecvFd (List.replicate 20 0) 4) idle (fun t => t.totalChunks) 0 = 2 := by
  decide

/-- V52. -/
theorem test_send_async_needs_callback :
    afterExec (.sendAsync [1]) idle (fun t => t.trace) [] = [.respond .invalidParameter []] := by
  decide

theorem test_send_async_clears_pending :
    afterExec (.sendAsync [1]) { idleCb with irqPending := true }
      (fun t => (t.irqPending, t.fsm)) (true, .idle) = (false, .run) := by decide

theorem test_send_recv_async_33 :
    afterExec (.sendRecvAsync [0x9F] 34) idleCb (fun t => (t.totalChunks, t.ctx.rxBase)) (0, 0) =
      (2, 1) := by decide

/-- V51: the word is checked before the busy flag. -/
theorem test_illegal_word_while_busy :
    stepEvents { idle with busy := true, inputs := [.command (wordRecord 0x103)] } =
      [.respond .invalidParameter []] := by decide

/-! ### Steps of the procedures -/

/-- P1: the opcode word of a 6-byte send. -/
theorem test_program_opcode :
    stepEvents (at_ (sendRequest .send [1, 2, 3, 4, 5, 6]) .run .wOpcode []) =
      [.write .opcode 0x01020304] := by decide

/-- P1: its first data slot. -/
theorem test_program_data :
    stepEvents (at_ (sendRequest .send [1, 2, 3, 4, 5, 6]) .run (.wData 0) []) =
      [.write (.data 0) 0x00000506] := by decide

/-- V40 at its last read: the budget ends the poll. -/
theorem test_poll_budget :
    after { at_ (sendRequest .send [0x9F]) .run .poll [1] with pollCnt := 9999 } (fun t => t.pos)
      .none = .cMode none ∧
    after { at_ (sendRequest .send [0x9F]) .run .poll [1] with pollCnt := 9998 } (fun t => t.pos)
      .none = .poll := by decide

/-- V40b: error bits while BUSY is set are ignored; V40c: they count once BUSY clears. -/
theorem test_poll_error_bits :
    after (at_ (sendRequest .send [0x9F]) .run .poll [3]) (fun t => t.pos) .none = .poll ∧
    after (at_ (sendRequest .send [0x9F]) .run (.cMode (some 2)) []) (fun t => t.pos) .none =
      .abortCs .unclassifiedError := by decide

/-- V39a: the readback of two bytes. -/
theorem test_readback_two_bytes :
    after (at_ (recvRequest .receive [3] 2 0) .run (.readback 0 []) [0x0000ABCD])
      (fun t => (t.ctx.rxBuf, t.ci)) ([], 0) = ([some 0xAB, some 0xCD], 1) := by decide

/-- V55: an error status of the first interrupt. -/
theorem test_isr_error :
    after (at_ (sendRequest .sendAsync (List.replicate 30 0)) .isr .isrStatus [2])
      (fun t => t.pos) .none = .abortAsyncCs := by decide

/-- P3: the first interrupt goes on, with both counters at 1. -/
theorem test_isr_next_chunk :
    after (at_ (sendRequest .sendAsync (List.replicate 30 0)) .isr .isrStatus [0])
      (fun t => (t.pos, t.ci, t.completedCount)) (.none, 0, 0) = (.wOpcode, 1, 1) := by decide

/-- V56 and V57: a stray pulse is discarded, an early one latched. -/
theorem test_pulse :
    after { idle with inputs := [.irqPulse] } (fun t => t.irqPending) true = false ∧
    after { at_ (sendRequest .sendAsync [1]) .run .acceptRespond [] with inputs := [.irqPulse] }
      (fun t => t.irqPending) false = true := by decide

/-- R302: a reset in the stuck state leaves it without an event. -/
theorem test_reset_leaves_stuck :
    after { at_ (sendRequest .sendAsync [1]) .waitIrq .none [] with inputs := [.reset] }
      (fun t => (t.fsm, t.busy, t.trace)) (.isr, true, [.cs true]) = (.idle, false, []) := by decide

/-! ### The reference controller (V49) -/

/-- V49: the wire of `TL = 6, RL = 16` in MSB-first and in LSB-first mode. -/
theorem test_full_duplex_corner_wire :
    Kick.dataWire
      { ord := .msbFirst, cmdBytes := 4, dataBytes := 12, dir := .fd, opcode := 0xA0A1A2A3,
        slots := #v[0x0000A4A5, 0, 0, 0, 0, 0, 0, 0] } Config.sample =
      [0, 0, 0xA4, 0xA5, 0, 0, 0, 0, 0, 0, 0, 0] ∧
    Kick.dataWire
      { ord := .lsbFirst, cmdBytes := 4, dataBytes := 12, dir := .fd, opcode := 0xA3A2A1A0,
        slots := #v[0x0000A5A4, 0, 0, 0, 0, 0, 0, 0] } Config.sample =
      [0xA4, 0xA5, 0, 0, 0, 0, 0, 0, 0, 0, 0, 0] := by decide

/-- P2: the slots of a 6-byte receive in LSB-first mode. -/
theorem test_receive_kick_slots :
    (Kick.storeRx
      { ord := .lsbFirst, cmdBytes := 2, dataBytes := 6, dir := .rx, opcode := 0,
        slots := Vector.replicate 8 0 } Config.sample (Vector.replicate 8 0)
      [0, 0, 0x10, 0x11, 0x12, 0x13, 0x14, 0x15]).toList.take 2 = [0x13121110, 0x00001514] := by
  decide

/-! ### The host's two questions, on one word -/

theorem test_fetch_word_runs :
    after (State.reset.withFetchWord 32 0x81) (fun t => (t.bitOrder, t.inputs, t.trace))
      (.msbFirst, [], []) = (.lsbFirst, [], [.respond .ok []]) := by decide

/-- Every row's match word decodes to that row's command, and the first step after reset takes it
and stays at the port. -/
theorem test_every_row_runs_first :
    (opcodeRows.all fun row =>
      decide ((decodeTableWord 32 row.2.1.toNat).map Instr.op = some row.1) &&
        after (State.reset.withFetchWord 32 row.2.1.toNat) (fun t => t.inputs.isEmpty) false) =
      true := by decide

/-! ### Labels, wire bits and port transactions -/

/-- R31. -/
theorem test_phase_labels :
    idle.phase = .idle ∧ (at_ (sendRequest .send [1]) .run .poll []).phase = .sendingCommand ∧
      { at_ (sendRequest .send [1]) .run .poll [] with ci := 1 }.phase = .transferringData ∧
      (at_ (sendRequest .send [1]) .run .finishCs []).phase = .done ∧
      { at_ (sendRequest .send [1]) .run (.abortCs .hardwareTimeout) [] with ci := 1 }.phase =
        .transferringData := by decide

/-- R82: bit 7 first in MSB-first mode, bit 0 first in LSB-first mode. -/
theorem test_wire_bits :
    (wireBits .msbFirst 0x80).head? = some true ∧ (wireBits .lsbFirst 0x80).head? = some false ∧
      (wireBits .lsbFirst 0x80).getLast? = some true := by decide

/-- R82: the one-byte kick of 0x9F, most significant bit first and least significant bit first. -/
theorem test_kick_bits :
    Kick.bits
      { ord := .msbFirst, cmdBytes := 1, dataBytes := 0, dir := .tx, opcode := 0x9F,
        slots := Vector.replicate 8 0 } Config.sample =
      [true, false, false, true, true, true, true, true] ∧
    Kick.bits
      { ord := .lsbFirst, cmdBytes := 1, dataBytes := 0, dir := .tx, opcode := 0x9F,
        slots := Vector.replicate 8 0 } Config.sample =
      [true, true, true, true, true, false, false, true] := by decide

/-- R9: the capacities a configuration holds. -/
theorem test_capacities :
    Config.sample.toCapacities = Config.Capacities.source ∧ Config.sample.hdSendStride = 28 ∧
      Config.Params.valid { Config.sample.toParams with hdSendStride := 32 } = false := by decide

/-- R12, R35, R270: the offset of a data slot, and a status code. -/
theorem test_port_transactions :
    Event.port Config.sample (.write (.data 3) 5) = .write32 20 5 ∧
      Event.port Config.sample (.respond .hardwareTimeout []) = .response 3 [] := by decide

/-! ### Witnesses: for every statement with hypotheses, a state and operands that meet them

A state that must meet the invariant is either an admitted request (`latch_inv`) or written out. -/

theorem idleCb_inv : idleCb.Inv where
  busy_iff := by decide
  mask := rfl
  fits := rfl
  cs := rfl
  poll_le := by decide
  ci_le := by decide
  locals := trivial
  idle_count := fun _ => rfl
  request := fun h => by cases h

/-- Every polling request the tests use, and the async ones, is admitted by the idle block. -/
theorem admitted_inv {i : Instr} {q : Request} (hi : requestOf i = some q) (hwf : i.wf = true)
    (ha : admissibleOperands i = true) : (admitted q).Inv :=
  latch_inv idleCb_inv hi hwf rfl ha (by simp [callbackCondition, idleCb])

/-- A one-byte send, about to assert chip-select. -/
def sendOne : State := admitted (sendRequest .send [0x9F])

theorem sendOne_inv : sendOne.Inv := admitted_inv (i := .send [0x9F]) rfl rfl rfl

/-- An async receive of 33 bytes after a one-byte command: two chunks. -/
def asyncTwo : State := admitted (recvRequest .sendRecvAsync [0x9F] 34 1)

theorem asyncTwo_inv : asyncTwo.Inv :=
  admitted_inv (i := .sendRecvAsync [0x9F] 34) rfl rfl rfl

/-- The same request in its interrupt procedure or waiting for it, at chunk `k`. -/
def asyncBase (fsm : Fsm) (pos : Pos) (k : Word) : State :=
  { asyncTwo with
    fsm := fsm, pos := pos, csState := .asserted, ci := k, completedCount := k }

/-- The same with read answers to come. -/
def asyncAt (fsm : Fsm) (pos : Pos) (k : Word) (answers : List Word) : State :=
  { asyncBase fsm pos k with answers := answers }

theorem asyncAt_inv {fsm : Fsm} {pos : Pos} {k : Word} (answers : List Word)
    (hp : fsm = .isr ∧ pos = .isrClear ∨ fsm = .waitIrq ∧ pos = .none) (hk : k = 0 ∨ k = 1) :
    (asyncAt fsm pos k answers).Inv := by
  have r := asyncTwo_inv.request rfl
  refine inv_congr (s := asyncBase fsm pos k) ?_ rfl rfl rfl rfl rfl rfl rfl rfl rfl rfl rfl rfl
  rcases hp with ⟨rfl, rfl⟩ | ⟨rfl, rfl⟩ <;> rcases hk with rfl | rfl <;>
    exact
      { busy_iff := by decide
        mask := rfl
        fits := rfl
        cs := rfl
        poll_le := by decide
        ci_le := by decide
        locals := trivial
        idle_count := fun h => by cases h
        request := fun _ =>
          { context := r.context
            total := r.total
            counters := by constructor <;> decide
            first := fun h => by cases h
            callback := fun _ => rfl } }

/-! Encoding and the request port. -/

theorem witness_EncodeThenDecode :
    (Instr.sendRecv [1, 2, 3, 4] 0xFFFFFFFF).wf = true ∧ (Instr.send []).wf = true := by decide

theorem witness_DecodedWordIsReencoded :
    decode { Record.zero with cw := 0x81, cfg := 7 } = .ok (.configure .lsbFirst 7) := rfl

theorem witness_TableRowDecodesToItsCommand :
    Record.wf (wordRecord 0x44) = true ∧
      (Op.receive, 0x00000004#32, 0xFFFFFF8F#32) ∈ opcodeRows ∧
      matchesRow 0x44 (Op.receive, 0x00000004#32, 0xFFFFFF8F#32) = true := by decide

/-- The operands clause on a record whose command bytes differ: the lanes above CMDLEN are left. -/
theorem witness_TableRowDecodesToItsCommand_operands :
    decode { Record.zero with cw := 0x24, cmdb := 0x44332211, rxlen := 9 } =
      .ok (.receive [0x11, 0x22] 9) ∧
    (0x24 : Word).toNat / 16 % 8 = 2 ∧ (0x44332211 : Word).toNat / 2 ^ (8 * 1) % 256 = 0x22 :=
  ⟨rfl, rfl, rfl⟩

theorem witness_IllegalWordIsInvalidParameter :
    Record.wf (wordRecord 0x54) = true ∧
      ∀ row ∈ opcodeRows, matchesRow (wordRecord 0x54).cw row = false := by decide

theorem witness_IllFormedRecordStops :
    ({ Record.zero with tx := [1] } : Record).tx.length ≠
      ({ Record.zero with tx := [1] } : Record).txlen.toNat := by decide

theorem witness_StepRunsDecodedCommand :
    { idle with inputs := [.command (wordRecord 0x03)] }.inputs = .command (wordRecord 0x03) :: [] ∧
      decode (wordRecord 0x03) = .ok (.send []) := ⟨rfl, rfl⟩

/-! The codec and the plans: the clauses at the ends of their ranges. -/

theorem witness_PackWordPlacesBytes :
    (packWord Config.sample [0xFF] .msbFirst = some 0xFF ∧
      packWord Config.sample [0xFF, 0, 0, 0] .msbFirst = some 0xFF000000) ∧
    (packWord Config.sample [] .lsbFirst = none ∧ packWord Config.sample [0, 0, 0, 0, 0] .lsbFirst = none) ∧
    4 < ({ sendOne with
      ctx := { sendOne.ctx with reqOp := .receive, cmd := [1, 2, 3, 4, 5] } } : State).chunk.op.length :=
  by decide

theorem witness_UnpackWordReadsBytes :
    unpackWord Config.sample 0xAABBCCDD 1 .msbFirst = some [0xDD] ∧
    unpackWord Config.sample 0xAABBCCDD 4 .lsbFirst = some [0xDD, 0xCC, 0xBB, 0xAA] ∧
    unpackWord Config.sample 0 0 .msbFirst = none ∧ unpackWord Config.sample 0 5 .msbFirst = none := by decide

theorem witness_CodecRoundTrips :
    (List.replicate 32 (7 : Byte)).length ≤ 32 ∧
      ceilDiv (List.replicate 32 (7 : Byte)).length 4 ≤ 8 ∧
      (packWord Config.sample [9, 8, 7, 6] .lsbFirst).bind (unpackWord Config.sample · 4 .lsbFirst) = some [9, 8, 7, 6] := by
  decide

theorem witness_StageIsZeroPadded :
    stage Config.sample (List.replicate 32 (1 : Byte)) .msbFirst 8 = some (List.replicate 8 0x01010101) ∧
      stage Config.sample [] .msbFirst 4 = some [0, 0, 0, 0] := by decide

theorem witness_SendPlanCarriesPayload :
    0 < hdSendCount Config.sample 1 ∧ 0 < hdSendCount Config.sample 28 ∧ 1 < hdSendCount Config.sample 29 ∧
      slotWord Config.sample (hdSendChunk Config.sample (List.replicate 28 1) 28 0) .msbFirst 6 = some 0 := by
  decide

theorem witness_ReceivePlanTiles :
    0 + 1 < hdRecvCount Config.sample 33 ∧
      opcodeWord Config.sample (hdRecvChunk Config.sample [] 5 0 0) .msbFirst = some 0 := by decide

theorem witness_FullDuplexPlanCarriesPayload :
    0 < (fdChunkAt Config.sample [] 0 17 (0 + 1)).rxN := by decide

/-! The commands at admission. -/

theorem witness_ConfigureCompletes : idle.busy = false := rfl

theorem witness_RegisterCallbackCompletes : idle.busy = false ∧ (1 : Word) ≠ 0 := by decide

theorem witness_SendCompletes :
    idle.busy = false ∧ 1 ≤ [(0x9F : Byte)].length ∧ [(0x9F : Byte)].length < 2 ^ 32 := by decide

theorem witness_ReceiveCompletes :
    idle.busy = false ∧ [(1 : Byte), 2, 3, 4].length ≤ 4 ∧ 1 ≤ (1 : Word).toNat := by decide

theorem witness_SendRecvCompletes :
    idle.busy = false ∧ [(0x9F : Byte)].length ≤ 4 ∧ [(0x9F : Byte)].length < (2 : Word).toNat := by
  decide

theorem witness_SendRecvFdCompletes :
    idle.busy = false ∧ ([] : List Byte).length < 2 ^ 32 ∧
      1 ≤ ([] : List Byte).length + (1 : Word).toNat := by decide

theorem witness_SendAsyncCompletes :
    idleCb.busy = false ∧ idleCb.cbValid = true ∧ 1 ≤ [(6 : Byte)].length ∧
      [(6 : Byte)].length < 2 ^ 32 := by decide

theorem witness_SendRecvAsyncCompletes :
    idleCb.busy = false ∧ idleCb.cbValid = true ∧ ([] : List Byte).length ≤ 4 ∧
      ([] : List Byte).length < (1 : Word).toNat := by decide

theorem witness_BusyBlockRefuses :
    (Instr.sendAsync [1]).wf = true ∧ admissibleOperands (.sendAsync [1]) = true ∧
      callbackCondition (.sendAsync [1]) sendOne.cbValid = true ∧ sendOne.busy = true ∧
      sendOne.irqMask = false := by decide

theorem witness_FailedCheckIsInvalidParameter :
    (Instr.sendRecv [1] 1).wf = true ∧ admissibleOperands (.sendRecv [1] 1) = false ∧
      (Instr.sendAsync [1]).wf = true ∧
      callbackCondition (.sendAsync [1]) idle.cbValid = false := by decide

theorem witness_CommandFrame :
    (∃ t, exec (.send [0x9F]) idle = .next t) ∧ (Instr.send [0x9F]).op ≠ .configure ∧
      (Instr.send [0x9F]).op ≠ .registerCallback ∧ (Instr.send [0x9F]).op.isAsync = false ∧
      (∃ t, exec (.configure .lsbFirst 0) idle = .next t) ∧
      transferOp (Instr.configure .lsbFirst 0).op = false := by
  refine ⟨⟨_, rfl⟩, ?_, ?_, rfl, ⟨_, rfl⟩, rfl⟩ <;> decide

/-! The trace and chip-select. -/

theorem witness_StepEmitsAtMostOneEvent : ∃ t, step sendOne = .next t := ⟨_, rfl⟩

theorem witness_ChipSelectEventsMarkChanges :
    (∃ t, step sendOne = .next t ∧ t.csState ≠ sendOne.csState) ∧ noReset sendOne ∧
    (∃ t, step idle = .next t ∧ t.csState = idle.csState) ∧ noReset idle := by
  refine ⟨⟨_, rfl, ?_⟩, ?_, ⟨_, rfl, rfl⟩, ?_⟩ <;> (intro h; cases h)

theorem witness_ChipSelectStaysBalanced :
    (∃ t, step sendOne = .next t) ∧ noReset sendOne ∧ csBalanced sendOne :=
  ⟨⟨_, rfl⟩, (fun h => by cases h), rfl⟩

/-! Kick, poll and readback. -/

/-- The async request programming its second chunk, in the interrupt procedure. -/
theorem witness_ProgramEmitsInOrder :
    (at_ (sendRequest .send [1]) .run .wOpcode []).fsm = .run ∧
      (at_ (sendRequest .send [1]) .run .wOpcode []).ctx.reqOp.isAsync = false ∧
      ChunkInDomain Config.sample (at_ (sendRequest .send [1]) .run .wOpcode []).chunk ∧
      (at_ (sendRequest .sendAsync [1]) .run .wOpcode []).ctx.reqOp.isAsync = true ∧
      ChunkInDomain Config.sample (at_ (sendRequest .sendAsync [1]) .isr .wOpcode []).chunk :=
  ⟨rfl, rfl, by constructor <;> decide, rfl, by constructor <;> decide⟩

theorem witness_PollIsBounded :
    (at_ (sendRequest .send [1]) .run .sStart [1, 0]).inputs = [] ∧
      (at_ (sendRequest .send [1]) .run .sStart [1, 0]).ctx.reqOp.isAsync = false ∧
      (at_ (sendRequest .send [1]) .run .sStart [1, 0]).controller = .oracle ∧
      2 ≤ (at_ (sendRequest .send [1]) .run .sStart [1, 0]).answers.length := by
  refine ⟨rfl, rfl, rfl, ?_⟩
  decide

theorem witness_KickIsClearedThenClassified :
    (at_ (sendRequest .send [1]) .run (.cMode none) []).inputs = [] ∧
      statusErr Config.sample 2 = true ∧ statusErr Config.sample 0 = false ∧
      (at_ (sendRequest .send [1]) .run (.cMode (some 0)) []).chunk.rxN = 0 ∧
      0 < (at_ (recvRequest .receive [] 1 0) .run (.cMode (some 0)) []).chunk.rxN := by decide

theorem witness_ReadbackDecodesSlots :
    ChunkInDomain Config.sample (at_ (recvRequest .receive [] 32 0) .run (.readback 0 []) []).chunk ∧
      0 < (at_ (recvRequest .receive [] 32 0) .run (.readback 0 []) []).chunk.rxN ∧
      readbackCount Config.sample (at_ (recvRequest .receive [] 32 0) .run (.readback 0 []) []).chunk ≤
        (at_ (recvRequest .receive [] 32 0) .run (.readback 0 []) (List.replicate 8 0)).answers.length :=
  ⟨by constructor <;> decide, by decide, by decide⟩

/-! The ends of a request. -/

theorem witness_PollEndDeassertsThenResponds :
    (at_ (sendRequest .send [1]) .run .finishCs []).csState = .asserted ∧
      (at_ (sendRequest .send [1]) .run .finishCs []).pos = .finishCs ∧
      (at_ (sendRequest .send [1]) .run (.abortCs .hardwareTimeout) []).pos =
        .abortCs .hardwareTimeout := ⟨rfl, rfl, rfl⟩

theorem witness_AsyncEndEmitsOnce :
    (at_ (sendRequest .sendAsync [1]) .isr .finishAsyncCs []).csState = .asserted ∧
      (at_ (sendRequest .sendAsync [1]) .isr .finishAsyncCs []).pos = .finishAsyncCs ∧
      (at_ (sendRequest .sendAsync [1]) .isr .abortAsyncCs []).pos = .abortAsyncCs :=
  ⟨rfl, rfl, rfl⟩

/-! The async path. -/

theorem witness_StartAsyncProgramsThenWaits :
    asyncTwo.Inv ∧ asyncTwo.inputs = [] ∧ asyncTwo.pos = .csAssert ∧
      asyncTwo.ctx.reqOp.isAsync = true := ⟨asyncTwo_inv, rfl, rfl, rfl⟩

theorem witness_InterruptEntry :
    { asyncAt .waitIrq .none 0 [] with irqPending := true }.fsm = .waitIrq ∧
      { asyncAt .waitIrq .none 0 [] with irqPending := true }.irqMask = false := ⟨rfl, rfl⟩

theorem witness_InterruptProgramsNextChunk :
    (asyncAt .isr .isrClear 0 (0 :: List.replicate 8 5 ++ [])).Inv ∧
      (asyncAt .isr .isrClear 0 (0 :: List.replicate 8 5 ++ [])).controller = .oracle ∧
      statusErr Config.sample 0 = false ∧
      (List.replicate 8 (5 : Word)).length = readbackCount Config.sample (asyncAt .isr .isrClear 0 []).chunk ∧
      (asyncAt .isr .isrClear 0 []).ci.toNat + 1 <
        (asyncAt .isr .isrClear 0 []).totalChunks.toNat :=
  ⟨asyncAt_inv _ (.inl ⟨rfl, rfl⟩) (.inl rfl), rfl, by decide, by decide, by decide⟩

theorem witness_LastInterruptFinishes :
    (asyncAt .isr .isrClear 1 (0 :: [5] ++ [])).Inv ∧
      [(5 : Word)].length = readbackCount Config.sample (asyncAt .isr .isrClear 1 []).chunk ∧
      (asyncAt .isr .isrClear 1 []).ci.toNat + 1 =
        (asyncAt .isr .isrClear 1 []).totalChunks.toNat :=
  ⟨asyncAt_inv _ (.inl ⟨rfl, rfl⟩) (.inr rfl), by decide, by decide⟩

theorem witness_InterruptErrorAborts :
    (asyncAt .isr .isrClear 0 [2]).Inv ∧ (asyncAt .isr .isrClear 0 [2]).answers = 2 :: [] ∧
      statusErr Config.sample 2 = true :=
  ⟨asyncAt_inv _ (.inl ⟨rfl, rfl⟩) (.inl rfl), rfl, by decide⟩

theorem witness_LostInterruptIsStuck : (asyncAt .waitIrq .none 0 []).stuck := ⟨rfl, rfl, rfl⟩

theorem witness_PulseIsLatchedOrDiscarded :
    { asyncTwo with inputs := [.irqPulse] }.controller = .oracle ∧
      { asyncTwo with inputs := [.irqPulse] }.busy = true ∧
      { idle with inputs := [.irqPulse] }.busy = false := ⟨rfl, rfl, rfl⟩

/-- The reference controller's clauses: a pulse it may raise, one it may not, a step that leaves it
so, a transfer's end with nothing in progress. -/
theorem witness_PulseIsLatchedOrDiscarded_reference :
    ({ refController with irqReady := true }).irqReady = true ∧ refController.irqReady = false ∧
      (∃ t, step { asyncTwo with controller := .reference refController, inputs := [.irqPulse] } =
        .next t) ∧
      [Input.irqPulse].head? ≠ some .transferEnd ∧ refController.kick = none := by
  refine ⟨rfl, rfl, ⟨_, rfl⟩, ?_, rfl⟩
  decide

theorem witness_CommandAndInterruptCommute :
    { asyncAt .waitIrq .none 0 [] with irqPending := true }.Inv ∧
      decode (wordRecord 0x01) = .ok (.configure .msbFirst 0) :=
  ⟨inv_congr (asyncAt_inv [] (.inr ⟨rfl, rfl⟩) (.inl rfl)) rfl rfl rfl rfl rfl rfl rfl rfl rfl rfl
    rfl rfl, rfl⟩

/-! The invariant, and whole requests. -/

theorem witness_StepKeepsTheInvariant : sendOne.Inv ∧ ∃ t, step sendOne = .next t :=
  ⟨sendOne_inv, _, rfl⟩

/-- Both outcomes of the statement, on states that meet the invariant. -/
theorem witness_OnlyIllFormedRecordsStop :
    sendOne.Inv ∧ { idleCb with inputs := [.command { Record.zero with tx := [1] }] }.Inv :=
  ⟨sendOne_inv, inv_congr idleCb_inv rfl rfl rfl rfl rfl rfl rfl rfl rfl rfl rfl rfl⟩

theorem witness_RequestOperandsAreFixedWhileBusy :
    sendOne.Inv ∧ (∃ t, step sendOne = .next t) ∧ noReset sendOne ∧ sendOne.busy = true :=
  ⟨sendOne_inv, ⟨_, rfl⟩, (fun h => by cases h), rfl⟩

theorem witness_OpaqueConfigurationIsNeverRead :
    (∃ t, step sendOne = .next t) ∧
      step { idle with inputs := [.command { Record.zero with tx := [1] }] } =
        .fault .illFormedRecord := ⟨⟨_, rfl⟩, rfl⟩

theorem witness_PollingRequestEnds :
    sendOne.Inv ∧ sendOne.inputs = [] ∧ sendOne.fsm = .run ∧
      sendOne.ctx.reqOp.isAsync = false := ⟨sendOne_inv, rfl, rfl, rfl⟩

/-- A good kick: one status read that shows BUSY, then one that is clear. -/
def goodKick : KickAnswers := { busyReads := [1], final := some 0, words := [] }

theorem goodKick_good : goodKick.good Config.sample sendOne.chunk :=
  ⟨fun v hv => by rw [List.mem_singleton.mp hv]; decide,
    lt_of_lt_of_le (by simp [goodKick]) (pollBudget_bounds Config.sample).1, ⟨0, rfl, by decide, by decide⟩, by decide⟩

theorem witness_PolledRequestRunsToOk :
    { sendOne with answers := [1, 0] }.Inv ∧
      { sendOne with answers := [1, 0] }.pos = .csAssert ∧
      [goodKick].length = sendOne.totalChunks.toNat ∧
      allGood sendOne.config sendOne.ctx 0 [goodKick] ∧
      { sendOne with answers := [1, 0] }.answers = [goodKick].flatMap KickAnswers.all ++ [] :=
  ⟨inv_congr sendOne_inv rfl rfl rfl rfl rfl rfl rfl rfl rfl rfl rfl rfl, rfl, by decide,
    ⟨goodKick_good, trivial⟩, by decide⟩

/-- Both ways a kick fails: error bits, and the exhausted budget. -/
theorem witness_PolledRequestAbortsAtFailure :
    { sendOne with answers := [2] }.Inv ∧ ([] : List KickAnswers).length < sendOne.totalChunks.toNat ∧
      KickAnswers.bad Config.sample { busyReads := [], final := some 2, words := [] } ∧
      { sendOne with answers := [2] }.answers =
        ([] ++ [KickAnswers.mk [] (some 2) []]).flatMap KickAnswers.all ++ [] ∧
      KickAnswers.bad Config.sample
        { busyReads := List.replicate 10000 1, final := none, words := [] } :=
  ⟨inv_congr sendOne_inv rfl rfl rfl rfl rfl rfl rfl rfl rfl rfl rfl rfl, by decide,
    ⟨by simp, rfl, .inr ⟨Nat.zero_lt_succ _, 2, rfl, by decide, by decide⟩⟩, by decide,
    ⟨fun v hv => by rw [List.eq_of_mem_replicate hv]; decide, rfl,
      .inl ⟨rfl, List.length_replicate⟩⟩⟩

/-! The reference controller, reset and instances. -/

theorem witness_RegisterAccessEffects : Reg.ctrl ≠ .status ∧ Reg.data 7 ≠ .status := by decide

/-- A one-byte send at its START behind an idle reference controller, and the same controller with
a transfer in progress. -/
def startState : State :=
  { at_ (sendRequest .send [0x9F]) .run .sStart [] with controller := .reference refController }

/-- The reference controller clocking one byte. -/
def clocking : RefController := refController.startKick .msbFirst

theorem witness_BusyShowsTransfer :
    startState.controller = .reference refController ∧ refController.kick = none ∧
      (∃ t, step startState = .next t) ∧ clocking.kick.isSome = true ∧
      (∃ t, step { startState with controller := .reference clocking, pos := .poll } = .next t) ∧
      startState.inputs.head? ≠ some .transferEnd := by
  refine ⟨rfl, rfl, ⟨_, rfl⟩, rfl, ⟨_, rfl⟩, ?_⟩
  intro h; cases h

theorem witness_SendKickWireOrder :
    packWord Config.sample [1, 2, 3, 4] .msbFirst = some 0x01020304 ∧
      stage Config.sample [5, 6] .msbFirst 8 =
        some (#v[0x0506, 0, 0, 0, 0, 0, 0, (0 : Word)]).toList ∧
      [(5 : Byte), 6].length ≤ 32 := by decide

/-- R218's example (a): the wire of a full-duplex chunk in the two modes. -/
theorem test_full_duplex_wire_bytes :
    wireBytes Config.sample .msbFirst
        (fdChunkAt Config.sample [0xA0, 0xA1, 0xA2, 0xA3, 0xA4, 0xA5] 6 16 0) =
      [0xA0, 0xA1, 0xA2, 0xA3, 0, 0, 0xA4, 0xA5, 0, 0, 0, 0, 0, 0, 0, 0] ∧
    wireBytes Config.sample .lsbFirst
        (fdChunkAt Config.sample [0xA0, 0xA1, 0xA2, 0xA3, 0xA4, 0xA5] 6 16 0) =
      [0xA0, 0xA1, 0xA2, 0xA3, 0xA4, 0xA5, 0, 0, 0, 0, 0, 0, 0, 0, 0, 0] := by decide

/-- The programming of a half-duplex chunk behind the reference controller. -/
theorem witness_SendKickWireOrder_run :
    { sendOne with
      pos := .wOpcode, csState := .asserted, controller := .reference refController }.Inv ∧
      sendOne.inputs = [] := by
  refine ⟨?_, rfl⟩
  exact inv_congr (s := { sendOne with pos := .wOpcode, csState := .asserted })
    (inv_move sendOne_inv .wOpcode rfl rfl rfl rfl rfl rfl rfl rfl rfl rfl rfl rfl
      sendOne_inv.poll_le trivial (fun _ => (sendOne_inv.request rfl).counters) (by decide))
    rfl rfl rfl rfl rfl rfl rfl rfl rfl rfl rfl rfl

/-- A full-duplex request of R218's example (a). -/
def duplexOne : State := admitted (duplexRequest [0xA0, 0xA1, 0xA2, 0xA3, 0xA4, 0xA5] 16)

theorem duplexOne_inv : duplexOne.Inv :=
  admitted_inv (i := .sendRecvFd [0xA0, 0xA1, 0xA2, 0xA3, 0xA4, 0xA5] 16) rfl rfl rfl

/-- The programming of a full-duplex chunk behind the reference controller. -/
theorem witness_SendKickWireOrder_duplex :
    { duplexOne with
      pos := .wOpcode, csState := .asserted, controller := .reference refController }.Inv ∧
      duplexOne.inputs = [] ∧ duplexOne.chunk.dir = .fd := by
  refine ⟨?_, rfl, by decide⟩
  exact inv_congr (s := { duplexOne with pos := .wOpcode, csState := .asserted })
    (inv_move duplexOne_inv .wOpcode rfl rfl rfl rfl rfl rfl rfl rfl rfl rfl rfl rfl
      duplexOne_inv.poll_le trivial (fun _ => (duplexOne_inv.request rfl).counters) (by decide))
    rfl rfl rfl rfl rfl rfl rfl rfl rfl rfl rfl rfl

/-- A receive kick, a full-duplex kick and a transmit kick at the ends of their lengths. -/
theorem witness_KickStoresReceivedBytes :
    (List.replicate 36 (1 : Byte)).length = 4 + 32 ∧ (List.replicate 16 (1 : Byte)).length = 4 + 12 ∧
      (List.replicate 16 (1 : Byte)).length ≤ 16 := by decide

theorem witness_ModeBitsClearOutsideKicks :
    { sendOne with controller := .reference refController }.Inv ∧
      modeBitsOk { sendOne with controller := .reference refController } ∧
      noReset { sendOne with controller := .reference refController } ∧
      ∃ t, step { sendOne with controller := .reference refController } = .next t :=
  ⟨inv_congr sendOne_inv rfl rfl rfl rfl rfl rfl rfl rfl rfl rfl rfl rfl, by
    simp [modeBitsOk, refController], (fun h => by cases h), _, rfl⟩

theorem witness_ResetTakesTheStatedValues :
    { asyncTwo with inputs := [.reset, .tick] }.inputs = .reset :: [.tick] := rfl

theorem witness_RegisterOffsetsAreDistinct :
    Config.sample.offset (.data 7) = 36 ∧ Config.sample.offset .mblen = 40 := by decide

theorem witness_InstancesAreIndependent :
    ∃ ts, stepInstance 1 [idle, sendOne] = .next ts := ⟨_, rfl⟩

end Sys2Proof.Tests
end

/-! The illegal command words (R107): a word the field checks of `decodeCw` accept is rebuilt from its
fields and so matches the row of its selector; hence a word that matches no row is refused for a reason
of its own, never as an ill-formed record, and the request port answers `InvalidParameter`. -/

namespace Sys2Proof

/-- The four fields of R101 make up the whole word. -/
theorem append_cwFields (cw : Word) :
    cwReserved cw ++ cwOrd cw ++ cwCmdLen cw ++ cwOp cw = cw := by
  simp only [cwReserved, cwOrd, cwCmdLen, cwOp]
  rw [BitVec.extractLsb'_append_extractLsb'_eq_extractLsb' (by decide),
    BitVec.extractLsb'_append_extractLsb'_eq_extractLsb' (by decide),
    BitVec.extractLsb'_append_extractLsb'_eq_extractLsb' (by decide)]
  exact BitVec.extractLsb'_eq_self

/-- A selector read from an OP value has that value (R105). -/
theorem code_of_opOfCode {c : BitVec 4} {o : Op} (h : opOfCode c = some o) : c = o.code := by
  revert c o
  decide

/-- The fields R106 allows a selector. -/
def Op.fieldsOk (o : Op) (cmdLen : BitVec 3) (ord : BitVec 1) : Prop :=
  (o.takesOrd = false → ord = 0) ∧ cmdLen.toNat ≤ cmdLenMax ∧ (o.takesCmd = false → cmdLen = 0)

/-- What an accepted command word is: its selector's word with fields R106 allows. -/
theorem decodeCw_ok {cw : Word} {o : Op} (h : decodeCw cw = .ok o) :
    cw = mkCw o (cwCmdLen cw) (cwOrd cw) ∧ o.fieldsOk (cwCmdLen cw) (cwOrd cw) := by
  cases hop : opOfCode (cwOp cw) with
  | none =>
    simp only [decodeCw, hop] at h
    split_ifs at h
  | some o' =>
    simp only [decodeCw, hop] at h
    split_ifs at h with hres hord hmax hcmd
    cases h
    have hword := append_cwFields cw
    rw [not_not.mp hres, code_of_opOfCode hop] at hword
    exact ⟨hword.symm, by simpa using hord, by simpa using hmax, by simpa using hcmd⟩

/-- The table agrees with the field checks: fields R106 allows a selector make a word some row
matches. -/
theorem exists_matchesRow_mkCw (o : Op) (cmdLen : BitVec 3) (ord : BitVec 1)
    (h : o.fieldsOk cmdLen ord) :
    ∃ row ∈ opcodeRows, matchesRow (mkCw o cmdLen ord) row = true := by
  unfold Op.fieldsOk at h
  revert cmdLen ord
  cases o <;> decide

/-- The field checks blame the word, never the record. -/
theorem decodeCw_ne_illFormedRecord (cw : Word) : decodeCw cw ≠ .error .illFormedRecord := by
  cases hop : opOfCode (cwOp cw) with
  | none =>
    simp only [decodeCw, hop]
    split_ifs <;> simp
  | some o =>
    simp only [decodeCw, hop]
    split_ifs <;> simp

/-- A word that matches no row is refused, and not as an ill-formed record. -/
theorem decodeCw_of_no_row {cw : Word} (h : ∀ row ∈ opcodeRows, matchesRow cw row = false) :
    ∃ e, decodeCw cw = .error e ∧ e ≠ .illFormedRecord := by
  cases hd : decodeCw cw with
  | ok o =>
    obtain ⟨hcw, hfields⟩ := decodeCw_ok hd
    obtain ⟨row, hmem, hrow⟩ := exists_matchesRow_mkCw o _ _ hfields
    rw [← hcw, h row hmem] at hrow
    cases hrow
  | error e =>
    refine ⟨e, rfl, ?_⟩
    rintro rfl
    exact decodeCw_ne_illFormedRecord cw hd

end Sys2Proof

namespace Sys2Proof.Machine

/-- The request port's answer to a record whose word the field checks refuse (R107). -/
theorem takeRecord_of_decodeCw_error {r : Record} {e : DecodeError} (s : State) (hwf : r.wf = true)
    (hd : decodeCw r.cw = .error e) (he : e ≠ .illFormedRecord) :
    takeRecord r s = .next (s.refuse .invalidParameter) := by
  have hdec : decode r = .error e := by simp [decode, hwf, hd]
  unfold takeRecord
  rw [hdec]
  cases e with
  | illFormedRecord => exact absurd rfl he
  | reservedBits => rfl
  | reservedOp => rfl
  | badCmdLen => rfl
  | badOrd => rfl

/-- The step that takes a request record leaves the answer to the port. -/
theorem step_of_command {s : State} {r : Record} {rest : List Input}
    (hi : s.inputs = .command r :: rest) : step s = takeRecord r { s with inputs := rest } := by
  simp [step, hi, State.popInput]

/-- Settles O4: a word no row matches fails a field check, and the port refuses it. -/
theorem illegalWordIsInvalidParameter : Obligations.IllegalWordIsInvalidParameter := by
  intro s r rest hi hwf hrows
  obtain ⟨e, hd, he⟩ := decodeCw_of_no_row hrows
  rw [step_of_command hi, takeRecord_of_decodeCw_error _ hwf hd he]
  rfl

end Sys2Proof.Machine

/-! The codec's words (R130 to R134): a word has a value exactly for 1 to 4 bytes, the value is the sum
of the bytes at their places, reading a byte takes the eight bits at its place, and a staged image is
the packed words with zero words after them. -/

namespace Sys2Proof.Machine

/-! ### The value of a packed word -/

/-- A byte at place `n` stays below place `n + 1`, with room for one more unit at its own place. -/
theorem byte_mul_place_le (x : Byte) (n : Nat) :
    x.toNat * 2 ^ (8 * n) + 2 ^ (8 * n) ≤ 2 ^ (8 * (n + 1)) :=
  calc x.toNat * 2 ^ (8 * n) + 2 ^ (8 * n) = (x.toNat + 1) * 2 ^ (8 * n) := by ring
    _ ≤ 256 * 2 ^ (8 * n) := Nat.mul_le_mul_right _ x.isLt
    _ = 2 ^ (8 * (n + 1)) := by ring

/-- A byte added to a word at its place, where the sum fits the word. -/
theorem toNat_byte_shiftLeft_add {x : Byte} {n : Nat} {w : Word}
    (hfit : x.toNat * 2 ^ (8 * n) + w.toNat < 2 ^ 32) :
    (x.setWidth 32 <<< (8 * n) + w).toNat = x.toNat * 2 ^ (8 * n) + w.toNat := by
  have hx : x.toNat < 2 ^ 32 := x.isLt.trans (by decide)
  rw [BitVec.toNat_add, BitVec.toNat_shiftLeft, BitVec.toNat_setWidth, Nat.mod_eq_of_lt hx,
    Nat.shiftLeft_eq, Nat.mod_eq_of_lt (a := x.toNat * 2 ^ (8 * n)) (by omega),
    Nat.mod_eq_of_lt hfit]

/-- The first four byte places lie in the word. -/
theorem place_le_word {n : Nat} (h : n ≤ 4) : 2 ^ (8 * n) ≤ 2 ^ 32 :=
  Nat.pow_le_pow_right (by decide) (by omega)

/-- The R130 sum of a list with one more byte in front, at any exponents. -/
theorem sum_places_cons (x : Byte) (bs : List Byte) (e : Nat → Nat) :
    ((List.range (x :: bs).length).map fun j => ((x :: bs).getD j 0).toNat * 2 ^ e j).sum =
      x.toNat * 2 ^ e 0 +
        ((List.range bs.length).map fun j => (bs.getD j 0).toNat * 2 ^ e (j + 1)).sum := by
  simp [List.range_succ_eq_map, Function.comp_def]

/-- The MSB-first sum of R130 does not overflow the word, and fills its low `8k` bits only. -/
theorem toNat_packMsb {b : List Byte} (h : b.length ≤ 4) :
    (packMsb b).toNat < 2 ^ (8 * b.length) ∧
    (packMsb b).toNat = ((List.range b.length).map fun j =>
      (b.getD j 0).toNat * 2 ^ (8 * (b.length - 1 - j))).sum := by
  induction b with
  | nil => exact ⟨by decide, rfl⟩
  | cons x bs ih =>
    rw [List.length_cons] at h
    obtain ⟨hlt, heq⟩ := ih (by omega)
    have hplace := byte_mul_place_le x bs.length
    have hword := place_le_word h
    have hval : (packMsb (x :: bs)).toNat = x.toNat * 2 ^ (8 * bs.length) + (packMsb bs).toNat :=
      toNat_byte_shiftLeft_add (by omega)
    constructor
    · rw [hval, List.length_cons]
      omega
    · rw [hval, sum_places_cons, heq]
      simp [Nat.sub_sub, Nat.add_comm]

/-- The LSB-first sum of R130 from byte position `j` on does not overflow: it ends below bit
`8·(j+k)`, with room for one more unit at position `j`. -/
theorem toNat_packLsbFrom {b : List Byte} {j : Nat} (h : j + b.length ≤ 4) :
    (packLsbFrom j b).toNat + 2 ^ (8 * j) ≤ 2 ^ (8 * (j + b.length)) ∧
    (packLsbFrom j b).toNat =
      ((List.range b.length).map fun i => (b.getD i 0).toNat * 2 ^ (8 * (j + i))).sum := by
  induction b generalizing j with
  | nil => exact ⟨by simp [packLsbFrom], rfl⟩
  | cons x bs ih =>
    rw [List.length_cons, ← Nat.add_assoc, Nat.add_right_comm] at h
    obtain ⟨hle, heq⟩ := ih h
    have hplace := byte_mul_place_le x j
    have hword := place_le_word h
    have hpos : 0 < 2 ^ (8 * j) := Nat.two_pow_pos _
    have hval : (packLsbFrom j (x :: bs)).toNat =
        x.toNat * 2 ^ (8 * j) + (packLsbFrom (j + 1) bs).toNat :=
      toNat_byte_shiftLeft_add (by omega)
    constructor
    · rw [hval, List.length_cons, ← Nat.add_assoc, Nat.add_right_comm j]
      omega
    · rw [hval, sum_places_cons, heq]
      simp [Nat.add_assoc, Nat.add_comm 1]

/-! ### Where a word has a value -/

/-- `pack_word` in its domain is the MSB-first sum in MSB-first mode (R130). -/
theorem packWord_msbFirst (c : Config) {b : List Byte} (h1 : 1 ≤ b.length) (h4 : b.length ≤ 4) :
    packWord c b .msbFirst = some (packMsb b) :=
  if_pos ⟨h1, by rw [Config.slotBytes_eq]; exact h4⟩

/-- `pack_word` in its domain is the LSB-first sum in LSB-first mode (R130). -/
theorem packWord_lsbFirst (c : Config) {b : List Byte} (h1 : 1 ≤ b.length) (h4 : b.length ≤ 4) :
    packWord c b .lsbFirst = some (packLsbFrom 0 b) :=
  if_pos ⟨h1, by rw [Config.slotBytes_eq]; exact h4⟩

/-- `pack_word` has no value exactly outside its domain (R131). -/
theorem packWord_eq_none_iff (c : Config) (b : List Byte) (ord : BitOrder) :
    packWord c b ord = none ↔ b.length = 0 ∨ 4 < b.length := by
  constructor
  · intro hnone
    by_contra hout
    obtain ⟨w, hw⟩ := packWord_some c (b := b) (by omega) (by omega) ord
    rw [hw] at hnone
    cases hnone
  · intro hout
    exact if_neg (by rw [Config.slotBytes_eq]; omega)

/-- A command phase longer than a word stops the engine (R131). -/
theorem stepOpcode_fault {s : State} (h : 4 < s.chunk.op.length) :
    stepOpcode s = .fault .codecDomain := by
  have hword : opcodeWord s.config s.chunk s.ctx.ord = none :=
    (if_pos (by omega)).trans ((packWord_eq_none_iff ..).mpr (.inr h))
  simp only [stepOpcode, hword]

/-- Settles O8: each bit order's sum is proved along the bytes, carrying the bound that keeps it
inside the word. -/
theorem packWordPlacesBytes : Obligations.PackWordPlacesBytes := by
  refine ⟨fun c b h1 h4 => ⟨?_, ?_⟩, packWord_eq_none_iff, fun s => stepOpcode_fault⟩
  · exact ⟨packMsb b, packWord_msbFirst c h1 h4, toNat_packMsb h4⟩
  · obtain ⟨hle, heq⟩ := toNat_packLsbFrom (b := b) (j := 0) (by omega)
    simp only [Nat.zero_add, Nat.mul_zero, Nat.pow_zero] at hle heq
    exact ⟨packLsbFrom 0 b, packWord_lsbFirst c h1 h4, hle, heq⟩

/-! ### Reading bytes back -/

/-- Eight bits of a word from bit `p` on, as a number. -/
theorem toNat_extractLsb'_byte (w : Word) (p : Nat) :
    (w.extractLsb' p 8).toNat = w.toNat / 2 ^ p % 256 := by
  rw [BitVec.extractLsb'_toNat, Nat.shiftRight_eq_div_pow]

/-- `unpack_word` has no value outside its domain (R132). -/
theorem unpackWord_none (c : Config) (w : Word) {k : Nat} (ord : BitOrder) (h : k = 0 ∨ 4 < k) :
    unpackWord c w k ord = none :=
  if_neg (by rw [Config.slotBytes_eq]; omega)

/-- Settles O9: in the domain the bytes are those of `wordByte`, each read at its place. -/
theorem unpackWordReadsBytes : Obligations.UnpackWordReadsBytes := by
  intro c w k ord
  refine ⟨fun h1 h4 => ⟨_, unpackWord_some c h1 h4 w ord, by simp, ?_⟩, unpackWord_none c w ord⟩
  intro j hj
  have hget : ((List.range k).map fun j => wordByte w k j ord).getD j 0 = wordByte w k j ord := by
    simp [hj]
  rw [hget]
  cases ord with
  | msbFirst => exact toNat_extractLsb'_byte w _
  | lsbFirst => exact toNat_extractLsb'_byte w _

/-! ### The staged image -/

/-- `stage` appends zero words to the packed words that fit (R134). -/
theorem stage_eq {c : Config} {b : List Byte} {ord : BitOrder} {m : Nat} {ps : List Word}
    (hps : packSlots c b ord = some ps) (hm : ps.length ≤ m) :
    stage c b ord m = some (ps ++ List.replicate (m - ps.length) 0) := by
  simp only [stage, hps, if_pos hm]

/-- Half-duplex send kicks stage all eight slots (R180). -/
theorem hdSendChunk_stageM (c : Config) (tx : List Byte) (n i : Nat) :
    (hdSendChunk c tx n i).stageM = 8 := by
  unfold hdSendChunk
  split
  · exact c.numSlots_eq
  · dsimp only
    split <;> exact c.numSlots_eq

/-- The staged bytes of a chunk in the domain need no more words than it stages. -/
theorem ChunkInDomain.staged_words_le {c : Config} {k : Chunk} (h : ChunkInDomain c k) :
    ceilDiv k.txd.length 4 ≤ k.stageM := by
  have htxd := h.txd_le
  rw [ceilDiv_four]
  omega

/-- Settles O11: the packed words come first and the zero words fill the rest; the plans' chunks are
in the codec's domain, so their bytes fit the words they stage. -/
theorem stageIsZeroPadded : Obligations.StageIsZeroPadded := by
  refine ⟨fun c b ord m hb hm => ?_, fun c tx rl i => ?_⟩
  · obtain ⟨ps, hps, hlen⟩ := packSlots_some c hb ord
    rw [← hlen] at hm ⊢
    refine ⟨ps, _, hps, rfl, stage_eq hps hm, ?_, by simp, fun j hpad hj => ?_⟩
    · simp only [List.length_append, List.length_replicate]
      omega
    · rw [List.getElem?_append_right hpad, List.getElem?_replicate, if_pos (by omega)]
  · have hsend := (hdSendChunk_inDomain c tx tx.length i).staged_words_le
    have hduplex := (fdChunkAt_inDomain c tx tx.length rl i).staged_words_le
    have hslots : (fdChunkAt c tx tx.length rl i).stageM = 4 := c.fdSendSlots_eq
    rw [hdSendChunk_stageM] at hsend
    rw [hslots] at hduplex
    exact ⟨hdSendChunk_stageM .., hsend, hslots, hduplex⟩

end Sys2Proof.Machine

/-! The engine's common procedures (41_engine_common.md): the two ends of a polling request, the events
of `program`, and the bounded poll. A run of one-event steps is described by what it emits and keeps, and
such runs compose. -/

namespace Sys2Proof.Machine

/-- A run of one step. -/
theorem runSteps_one {s t : State} (h : step s = .next t) : runSteps 1 s = .next t :=
  runSteps_cons h 0

/-- Two steps of a running procedure whose first one keeps it running. -/
theorem runSteps_two {s u t : State} (hi : s.inputs = []) (hf : s.fsm = .run ∨ s.fsm = .isr)
    (hfirst : procStep s = .next u) (hinputs : u.inputs = s.inputs) (hfsm : u.fsm = s.fsm)
    (hsecond : procStep u = .next t) : runSteps 2 s = .next t := by
  rw [runSteps_cons ((step_of_running hi hf).trans hfirst)]
  exact runSteps_one ((step_of_running (hinputs.trans hi) (hfsm ▸ hf)).trans hsecond)

/-! ### The ends of a polling request (R167, R168) -/

/-- Step 2 of both ends in full: the controller is released and the request's output responded. -/
theorem endPoll_eq (s : State) (st : Status) :
    s.endPoll st = { s with
      busy := false
      fsm := .idle
      pos := .none
      trace := s.trace ++ [.respond st (outOf s.ctx s.ctx.rxBuf)] } := rfl

/-- The two steps that `finish_poll` and `abort_poll` share: a procedure at `s` that deasserts
chip-select and moves to `p`, where the request is ended with `st`. -/
theorem runSteps_endPoll {s : State} {st : Status} {p : Pos} (hi : s.inputs = []) (hf : s.fsm = .run)
    (hcs : s.csState = .asserted)
    (hfirst : procStep s = .next { s.setCs .deasserted with pos := p })
    (hsecond : ∀ u : State, u.pos = p → procStep u = .next (u.endPoll st)) :
    runSteps 2 s = .next { s with
      csState := .deasserted
      busy := false
      fsm := .idle
      pos := .none
      trace := s.trace ++ [.cs (!s.config.csAssertLevel), .respond st (outOf s.ctx s.ctx.rxBuf)] } := by
  rw [runSteps_two hi (.inl hf) hfirst rfl rfl (hsecond _ rfl), endPoll_eq,
    setCs_of_ne (by rw [hcs]; decide)]
  simp [csLevel]

/-- Settles O35: both ends take the same two steps, and the context stays as it is. -/
theorem pollEndDeassertsThenResponds : Obligations.PollEndDeassertsThenResponds := by
  intro s st hi hf hcs hpos
  refine ⟨s.ctx, ?_⟩
  rcases hpos with ⟨hfinish, rfl⟩ | habort
  · exact runSteps_endPoll hi hf hcs (procStep_finishCs hfinish) fun _ => procStep_finishRespond
  · exact runSteps_endPoll hi hf hcs (procStep_abortCs habort) fun _ => procStep_abortRespond

/-! ### Runs of writes -/

/-- A run of `n` steps from `s` to `t` that emits `es`, takes no read answer and keeps what the
register-bus operations keep. -/
structure WriteRun (n : Nat) (s t : State) (es : List Event) : Prop where
  steps : runSteps n s = .next t
  frame : BusFrame s t
  answers : t.answers = s.answers
  trace : t.trace = s.trace ++ es

/-- The run of no steps. -/
theorem WriteRun.refl (s : State) : WriteRun 0 s s [] where
  steps := rfl
  frame := ⟨rfl, rfl, rfl, rfl, rfl, rfl, rfl, rfl, rfl, rfl, rfl, id⟩
  answers := rfl
  trace := (List.append_nil _).symm

/-- Runs of writes compose. -/
theorem WriteRun.trans {n m : Nat} {s t u : State} {es es' : List Event} (h : WriteRun n s t es)
    (g : WriteRun m t u es') : WriteRun (n + m) s u (es ++ es') where
  steps := (runSteps_add m h.steps).trans g.steps
  frame := h.frame.trans g.frame
  answers := g.answers.trans h.answers
  trace := by rw [g.trace, h.trace, List.append_assoc]

/-- A step of a running procedure that emits one event. -/
theorem WriteRun.single {s t : State} {e : Event} (hi : s.inputs = [])
    (hf : s.fsm = .run ∨ s.fsm = .isr) (hstep : procStep s = .next t) (hframe : BusFrame s t)
    (hanswers : t.answers = s.answers) (htrace : t.trace = s.trace ++ [e]) :
    WriteRun 1 s t [e] where
  steps := runSteps_one ((step_of_running hi hf).trans hstep)
  frame := hframe
  answers := hanswers
  trace := htrace

/-! ### `program` (R156) -/

/-- Where `program` stands before the write of send slot `j`, or after the last one. -/
def slotPos (c : Chunk) (j : Nat) : Pos :=
  if j < c.stageM then .wData (Fin.ofNat 8 j) else .wMblen

/-- The opcode write moves to the first send slot. -/
theorem stepOpcode_next {s : State} (h : s.chunk.op.length ≤ 4) :
    stepOpcode s = .next { s.busWrite .opcode ((opcodeWord s.config s.chunk s.ctx.ord).getD 0) with
      pos := slotPos s.chunk 0 } := by
  obtain ⟨w, hw⟩ := opcodeWord_some s.config h s.ctx.ord
  simp only [stepOpcode, hw, Option.getD_some]
  rfl

/-- A slot write moves to the next slot. -/
theorem stepData_next {s : State} {j : Nat} {w : Word} (hj : j < 8)
    (hw : slotWord s.config s.chunk s.ctx.ord j = some w) :
    stepData s (Fin.ofNat 8 j) = .next { s.busWrite (.data (Fin.ofNat 8 j)) w with
      pos := slotPos s.chunk (j + 1) } := by
  have hval : (Fin.ofNat 8 j).val = j := Nat.mod_eq_of_lt hj
  have hnext : Fin.ofNat 8 j + 1 = Fin.ofNat 8 (j + 1) := Fin.ext (by simp [Fin.val_add])
  simp only [stepData, hval, hw, hnext, slotPos]

/-- The word of a slot is that of the staged image. -/
theorem slotWord_of_stage {g : Config} {c : Chunk} {ord : BitOrder} {ws : List Word}
    (h : stage g c.txd ord c.stageM = some ws) (j : Nat) : slotWord g c ord j = ws[j]? := by
  simp only [slotWord, h]

/-- From slot `j` on, `program` writes the rest `ws` of the staged image, one slot a step. -/
theorem slotWrites_run {img : List Word} (ws : List Word) {s : State} {j : Nat} (hi : s.inputs = [])
    (hf : s.fsm = .run ∨ s.fsm = .isr) (hp : s.pos = slotPos s.chunk j) (hle : s.chunk.stageM ≤ 8)
    (himg : stage s.config s.chunk.txd s.ctx.ord s.chunk.stageM = some img)
    (hlen : img.length = s.chunk.stageM) (hws : img.drop j = ws) :
    ∃ t, WriteRun ws.length s t (slotEvents j ws) ∧ t.pos = .wMblen := by
  induction ws generalizing s j with
  | nil =>
    have hend : ¬ j < s.chunk.stageM := by
      have := List.drop_eq_nil_iff.mp hws
      omega
    exact ⟨s, WriteRun.refl s, hp.trans (if_neg hend)⟩
  | cons w ws ih =>
    have hget : img[j]? = some w := by rw [← List.head?_drop, hws]; rfl
    have hj : j < s.chunk.stageM := hlen ▸ (List.getElem?_eq_some_iff.mp hget).1
    have hstep := (procStep_wData (hp.trans (if_pos hj))).trans
      (stepData_next (by omega) ((slotWord_of_stage himg j).trans hget))
    have hone := WriteRun.single hi hf hstep (busWrite_frame ..) rfl rfl
    obtain ⟨t, hrun, hpos⟩ := ih (s := { s.busWrite (.data (Fin.ofNat 8 j)) w with
      pos := slotPos s.chunk (j + 1) }) hi hf rfl hle himg hlen (by rw [← List.drop_drop, hws]; rfl)
    exact ⟨t, by simpa [Nat.add_comm, slotEvents] using hone.trans hrun, hpos⟩

/-- `program` up to its kick: every event of it but the last. -/
theorem program_run {s : State} (hi : s.inputs = []) (hf : s.fsm = .run ∨ s.fsm = .isr)
    (hp : s.pos = .wOpcode) (hc : ChunkInDomain s.config s.chunk) :
    ∃ t es, WriteRun (3 + s.chunk.stageM) s t es ∧ t.pos = .sStart ∧
      programEvents s.config s.ctx.ord s.chunk = es ++ [.setBits .ctrl s.config.start] := by
  obtain ⟨img, himg, hlen⟩ := stage_some s.config hc.txd_le hc.stage_le s.ctx.ord
  have hopcode := WriteRun.single hi hf ((procStep_wOpcode hp).trans (stepOpcode_next hc.op_le))
    (busWrite_frame ..) rfl rfl
  obtain ⟨t, hslots, hpos⟩ := slotWrites_run img (hopcode.frame.no_input hi)
    (hopcode.frame.running hf) rfl hc.stage_le himg hlen rfl
  have htoMblen := hopcode.trans hslots
  have hmblen := WriteRun.single (htoMblen.frame.no_input hi) (htoMblen.frame.running hf)
    (procStep_wMblen hpos) (stepMblen_frame t) rfl rfl
  have htoMode := htoMblen.trans hmblen
  have hmode := WriteRun.single (htoMode.frame.no_input hi) (htoMode.frame.running hf)
    (procStep_sMode rfl) (stepMode_frame _) rfl rfl
  have hrun := htoMode.trans hmode
  rw [hlen, htoMblen.frame.chunk, hmblen.frame.chunk, htoMblen.frame.chunk,
    show 1 + s.chunk.stageM + 1 + 1 = 3 + s.chunk.stageM by omega] at hrun
  exact ⟨_, _, hrun, rfl, by simp [programEvents, himg]⟩

/-- The kick writes the sequencer's state and position and the poll counter; else it sets START. -/
theorem stepStart_writes (s : State) :
    ∃ f p n, stepStart s =
      { s.busSet .ctrl s.config.start with fsm := f, pos := p, pollCnt := n } := by
  unfold stepStart State.afterStart
  split
  · exact ⟨.waitIrq, .none, s.pollCnt, rfl⟩
  · split
    · exact ⟨s.fsm, .acceptRespond, s.pollCnt, rfl⟩
    · exact ⟨s.fsm, .poll, 0, rfl⟩

/-- In the interrupt procedure the kick is followed by waiting (R240). -/
theorem afterStart_isr {s : State} (h : s.fsm = .isr) : s.afterStart = s.toWaitIrq := if_pos h

/-- In `start_async` the kick is followed by the response (R231). -/
theorem afterStart_async {s : State} (h : s.fsm = .run) (ha : s.ctx.reqOp.isAsync = true) :
    s.afterStart = { s with pos := .acceptRespond } :=
  (if_neg (by rw [h]; decide)).trans (if_pos ha)

/-- In a polling request the kick is followed by the poll, which counts from 0 (R161). -/
theorem afterStart_polling {s : State} (h : s.fsm = .run) (ha : s.ctx.reqOp.isAsync = false) :
    s.afterStart = { s with pollCnt := 0, pos := .poll } :=
  (if_neg (by rw [h]; decide)).trans (if_neg (by rw [ha]; decide))

/-- Settles O31: `program` runs to its kick, and the kick decides by the request's path. -/
theorem programEmitsInOrder : Obligations.ProgramEmitsInOrder := by
  intro s hi hf hp hc
  obtain ⟨u, es, hrun, hpos, hevents⟩ := program_run hi hf hp hc
  have hframe := hrun.frame
  obtain ⟨f, p, n, hkick⟩ := stepStart_writes u
  have hsteps : runSteps (3 + s.chunk.stageM + 1) s = .next (stepStart u) := by
    rw [runSteps_add 1 hrun.steps]
    exact runSteps_one ((step_of_running (hframe.no_input hi) (hframe.running hf)).trans
      (procStep_sStart hpos))
  refine ⟨stepStart u, by rw [← hsteps]; congr 1; omega, ?_, ?_, ?_, ?_, ?_, ?_, ?_, ?_, ?_, ?_⟩
  · simp [hkick, hrun.trace, hframe.config, hevents]
  · simp [hkick, hframe.ctx]
  · simp [hkick, hframe.ci]
  · simp [hkick, hframe.busy]
  · simp [hkick, hrun.answers]
  · simp [hkick, hframe.csState]
  · simp [hkick, hframe.completedCount]
  · intro hisr
    simp [stepStart, afterStart_isr, hframe.fsm, hisr]
  · intro hrunning hasync
    simp [stepStart, afterStart_async, hframe.fsm, hframe.ctx, hrunning, hasync]
  · intro hrunning hpolling
    simp [stepStart, afterStart_polling, hframe.fsm, hframe.ctx, hrunning, hpolling]

/-! ### `poll` (R161) -/

/-- Within the budget the read counter does not overflow. -/
theorem pollCnt_succ {s : State} (h : s.pollCnt.toNat < s.config.pollBudget) :
    (s.pollCnt + 1).toNat = s.pollCnt.toNat + 1 := by
  have hbudget := (pollBudget_bounds s.config).2
  rw [BitVec.toNat_add, show (1 : Word).toNat = 1 from rfl]
  omega

/-- A run of status reads of `poll` from `s` to `t` that are answered `vs`. -/
structure PollRun (s t : State) (vs : List Word) : Prop where
  steps : runSteps vs.length s = .next t
  frame : BusFrame s t
  trace : t.trace = s.trace ++ statusEvents vs
  count : t.pollCnt.toNat = s.pollCnt.toNat + vs.length
  answers : s.controller = .oracle → vs.length ≤ s.answers.length →
    vs = s.answers.take vs.length ∧ t.answers = s.answers.drop vs.length

/-- One more status read in front. -/
theorem PollRun.cons {s t u : State} {v : Word} {vs : List Word} (h : PollRun s t [v])
    (g : PollRun t u vs) : PollRun s u (v :: vs) where
  steps := by
    rw [List.length_cons, Nat.add_comm]
    exact (runSteps_add vs.length h.steps).trans g.steps
  frame := h.frame.trans g.frame
  trace := by
    rw [g.trace, h.trace, List.append_assoc]
    rfl
  count := by
    have hone := h.count
    have hrest := g.count
    simp only [List.length_cons, List.length_nil] at hone ⊢
    omega
  answers := by
    intro horacle hlen
    rw [List.length_cons] at hlen
    obtain ⟨hv, hdrop⟩ := h.answers horacle (Nat.le_trans (Nat.le_add_left 1 _) hlen)
    have hrest : vs.length ≤ t.answers.length := by
      simp only [hdrop, List.length_drop, List.length_cons, List.length_nil]
      omega
    obtain ⟨hvs, hdrops⟩ := g.answers (h.frame.oracle horacle) hrest
    rw [List.length_cons, List.length_nil, Nat.zero_add] at hv hdrop
    rw [List.length_cons, Nat.add_comm vs.length, List.take_add, ← List.drop_drop, ← hdrop, ← hv,
      ← hvs]
    exact ⟨rfl, hdrops⟩

/-- One status read, while the counter does not overflow. -/
theorem PollRun.single {s : State} (hi : s.inputs = []) (hf : s.fsm = .run) (hp : s.pos = .poll)
    (hcnt : s.pollCnt.toNat < s.config.pollBudget) :
    PollRun s (stepPoll s) [s.readValue .status] where
  steps := runSteps_one ((step_of_running hi (.inl hf)).trans (procStep_poll hp))
  frame := stepPoll_frame s
  trace := rfl
  count := pollCnt_succ hcnt
  answers := by
    intro horacle hlen
    cases ha : s.answers with
    | nil => rw [ha] at hlen; cases hlen
    | cons v rest =>
      obtain ⟨hv, hread⟩ := oracle_read horacle ha .status
      exact ⟨by rw [hv]; rfl, by rw [stepPoll, State.afterPoll_answers, hread]; rfl⟩

/-- What `poll` has read when it leaves for `p` with its counter at `n`: the first answer with BUSY
clear and BUSY answers before it, or a whole budget of BUSY answers. -/
def PollEnds (g : Config) (n : Nat) (p : Pos) (vs : List Word) : Prop :=
  (∃ us v, vs = us ++ [v] ∧ p = .cMode (some v) ∧ statusBusy g v = false ∧
    ∀ u ∈ us, statusBusy g u = true) ∨
  (p = .cMode none ∧ n = g.pollBudget ∧ ∀ u ∈ vs, statusBusy g u = true)

/-- A BUSY answer before the others does not change how the poll ends. -/
theorem PollEnds.cons {g : Config} {n : Nat} {p : Pos} {vs : List Word} {v : Word}
    (hv : statusBusy g v = true) (h : PollEnds g n p vs) : PollEnds g n p (v :: vs) := by
  rcases h with ⟨us, w, rfl, hpos, hclear, hbusy⟩ | ⟨hpos, hn, hbusy⟩
  · exact .inl ⟨v :: us, w, rfl, hpos, hclear, List.forall_mem_cons.mpr ⟨hv, hbusy⟩⟩
  · exact .inr ⟨hpos, hn, List.forall_mem_cons.mpr ⟨hv, hbusy⟩⟩

/-- Where `poll` goes after a read that shows BUSY clear. -/
theorem stepPoll_pos_of_clear {s : State} (h : statusBusy s.config (s.readValue .status) = false) :
    (stepPoll s).pos = .cMode (some (s.readValue .status)) := by
  rw [stepPoll_pos, h]
  rfl

/-- Where `poll` goes after a read that shows BUSY: TIMEOUT when it was the budget's last. -/
theorem stepPoll_pos_of_busy {s : State} (hcnt : s.pollCnt.toNat < s.config.pollBudget)
    (h : statusBusy s.config (s.readValue .status) = true) :
    (stepPoll s).pos =
      if s.config.pollBudget ≤ s.pollCnt.toNat + 1 then .cMode none else .poll := by
  rw [stepPoll_pos, h, pollCnt_succ hcnt]
  rfl

/-- With `k` reads of the budget left, `poll` ends after at most `k` reads, whatever is answered. -/
theorem poll_run {k : Nat} (hk : 0 < k) {s : State} (hi : s.inputs = []) (hf : s.fsm = .run)
    (hp : s.pos = .poll) (hleft : s.pollCnt.toNat + k = s.config.pollBudget) :
    ∃ vs t, PollRun s t vs ∧ vs.length ≤ k ∧ PollEnds s.config t.pollCnt.toNat t.pos vs := by
  induction k generalizing s with
  | zero => cases hk
  | succ k ih =>
    have hcnt : s.pollCnt.toNat < s.config.pollBudget := by omega
    have hread := PollRun.single hi hf hp hcnt
    have hcount : (stepPoll s).pollCnt.toNat = s.pollCnt.toNat + 1 := hread.count
    cases hv : statusBusy s.config (s.readValue .status) with
    | false =>
      exact ⟨_, _, hread, by simp, .inl ⟨[], _, rfl, stepPoll_pos_of_clear hv, hv, by simp⟩⟩
    | true =>
      have hpos := stepPoll_pos_of_busy hcnt hv
      by_cases hlast : k = 0
      · rw [if_pos (by omega)] at hpos
        exact ⟨_, _, hread, by simp, .inr ⟨hpos, by omega, by simpa using hv⟩⟩
      · rw [if_neg (by omega)] at hpos
        obtain ⟨vs, t, hrest, hle, hends⟩ :=
          ih (s := stepPoll s) (by omega) hi hf hpos (show _ = s.config.pollBudget by omega)
        exact ⟨_, t, hread.cons hrest, Nat.succ_le_succ hle, PollEnds.cons hv hends⟩

/-- Settles O32: START resets the counter, so the whole budget is left to the poll. -/
theorem pollIsBounded : Obligations.PollIsBounded := by
  intro s hi hf hpolling hp
  have hstart : step s = .next { s.busSet .ctrl s.config.start with pollCnt := 0, pos := .poll } := by
    rw [step_of_running hi (.inl hf), procStep_sStart hp, stepStart,
      afterStart_polling (s := s.busSet .ctrl s.config.start) hf hpolling]
  have hbudget := (pollBudget_bounds s.config).1
  obtain ⟨vs, t, hrun, hle, hends⟩ := poll_run (k := s.config.pollBudget) (by omega)
    (s := { s.busSet .ctrl s.config.start with pollCnt := 0, pos := .poll }) hi hf rfl
    (Nat.zero_add _)
  have hcount : t.pollCnt.toNat = vs.length := hrun.count.trans (Nat.zero_add _)
  refine ⟨vs, t, ?_, hle, ?_, hrun.trace, hcount, ?_, ?_⟩
  · rcases hends with ⟨us, v, rfl, -⟩ | ⟨-, hn, -⟩
    · simp
    · rw [← hcount, hn]
      exact Nat.le_trans (by decide) hbudget
  · rw [Nat.add_comm, runSteps_cons hstart]
    exact hrun.steps
  · rcases hends with ⟨us, v, rfl, hpos, hclear, hbusy⟩ | ⟨hpos, hn, hbusy⟩
    · exact .inl ⟨v, hpos, List.getLast?_concat, hclear, by rwa [List.dropLast_concat]⟩
    · exact .inr ⟨hpos, hcount.symm.trans hn, hbusy⟩
  · intro horacle
    exact hrun.answers ((busSet_frame s .ctrl s.config.start).oracle horacle)

end Sys2Proof.Machine

/-! The async path (44_async_completion.md): the two ends of an async request, and `start_async` from its
chip-select assertion to its response. -/

namespace Sys2Proof.Machine

/-! ### The ends of an async request (R242, R244) -/

/-- Step 2 of both ends in full: the counter is cleared, the controller is released and the event goes
to the registered callback. -/
theorem endAsync_eq (s : State) (code : EventCode) :
    s.endAsync code = { s with
      completedCount := 0
      busy := false
      fsm := .idle
      pos := .none
      trace := s.trace ++ [.emit s.cbHandle code s.cbUdata (outOf s.ctx s.ctx.rxBuf)] } := rfl

/-- The two steps that `finish_async` and `abort_async` share: a procedure at `s` that deasserts
chip-select and moves to `p`, where the request is ended with `code`. -/
theorem runSteps_endAsync {s : State} {code : EventCode} {p : Pos} (hi : s.inputs = [])
    (hf : s.fsm = .isr) (hcs : s.csState = .asserted)
    (hfirst : procStep s = .next { s.setCs .deasserted with pos := p })
    (hsecond : ∀ u : State, u.pos = p → procStep u = .next (u.endAsync code)) :
    runSteps 2 s = .next { s with
      csState := .deasserted
      completedCount := 0
      busy := false
      fsm := .idle
      pos := .none
      trace := s.trace ++ [.cs (!s.config.csAssertLevel),
        .emit s.cbHandle code s.cbUdata (outOf s.ctx s.ctx.rxBuf)] } := by
  rw [runSteps_two hi (.inr hf) hfirst rfl rfl (hsecond _ rfl), endAsync_eq,
    setCs_of_ne (by rw [hcs]; decide)]
  simp [csLevel]

/-- Settles O36: the code chooses the procedure, both take the same two steps, and the context stays
as it is. -/
theorem asyncEndEmitsOnce : Obligations.AsyncEndEmitsOnce := by
  intro s code hi hf hcs hpos
  refine ⟨s.ctx, ?_⟩
  cases code with
  | finished =>
    exact runSteps_endAsync hi hf hcs (procStep_finishAsyncCs hpos) fun _ => procStep_finishAsyncEmit
  | error =>
    exact runSteps_endAsync hi hf hcs (procStep_abortAsyncCs hpos) fun _ => procStep_abortAsyncEmit

/-! ### `start_async` (R231) -/

/-- Only a running procedure stands at the chip-select assertion. -/
theorem State.Inv.run_of_csAssert {s : State} (h : s.Inv) (hp : s.pos = .csAssert) :
    s.fsm = .run := by
  have hfits := h.fits
  rw [hp] at hfits
  cases hf : s.fsm with
  | run => rfl
  | idle => simp [hf, posFits] at hfits
  | waitIrq => simp [hf, posFits] at hfits
  | isr => simp [hf, posFits] at hfits

/-- Before its assertion chip-select is deasserted. -/
theorem State.Inv.deasserted_of_csAssert {s : State} (h : s.Inv) (hp : s.pos = .csAssert) :
    s.csState = .deasserted := by
  rw [h.cs, h.run_of_csAssert hp, hp]
  rfl

/-- The step that asserts chip-select emits the assertion level and moves to `program` (R153, R231). -/
theorem step_csAssert {s : State} (hinv : s.Inv) (hi : s.inputs = []) (hp : s.pos = .csAssert) :
    step s = .next { s with
      csState := .asserted
      trace := s.trace ++ [.cs s.config.csAssertLevel]
      pos := .wOpcode } := by
  rw [step_of_running hi (.inl (hinv.run_of_csAssert hp)), procStep_csAssert hp,
    setCs_of_ne (by rw [hinv.deasserted_of_csAssert hp]; decide)]
  rfl

/-- In `start_async` the whole of `program` is a run of writes that ends at the response. -/
theorem program_run_async {s : State} (hi : s.inputs = []) (hf : s.fsm = .run)
    (ha : s.ctx.reqOp.isAsync = true) (hp : s.pos = .wOpcode) (hc : ChunkInDomain s.config s.chunk) :
    ∃ t, WriteRun (4 + s.chunk.stageM) s t (programEvents s.config s.ctx.ord s.chunk) ∧
      t.pos = .acceptRespond := by
  obtain ⟨u, es, hrun, hpos, hevents⟩ := program_run hi (.inl hf) hp hc
  have hframe := hrun.frame
  have huf : u.fsm = .run := hframe.fsm.trans hf
  have hua : u.ctx.reqOp.isAsync = true := by rw [hframe.ctx]; exact ha
  have hstart : procStep u = .next { u.busSet .ctrl s.config.start with pos := .acceptRespond } := by
    rw [procStep_sStart hpos, stepStart, hframe.config,
      afterStart_async (s := u.busSet .ctrl s.config.start) huf hua]
  have hkick := WriteRun.single (hframe.no_input hi) (.inl huf) hstart
    { busSet_frame u .ctrl s.config.start with } rfl rfl
  have hall := hrun.trans hkick
  rw [← hevents, show 3 + s.chunk.stageM + 1 = 4 + s.chunk.stageM by omega] at hall
  exact ⟨_, hall, rfl⟩

/-- The acceptance response is one step, which enters WAIT_IRQ. -/
theorem step_acceptRespond {s : State} (hi : s.inputs = []) (hf : s.fsm = .run)
    (hp : s.pos = .acceptRespond) : step s = .next (s.toWaitIrq.respond .ok []) :=
  (step_of_running hi (.inl hf)).trans (procStep_acceptRespond hp)

/-- Settles O37: the assertion, then `program` in the chunk's domain, then the response. -/
theorem startAsyncProgramsThenWaits : Obligations.StartAsyncProgramsThenWaits := by
  intro s hinv hi hp ha
  have hf := hinv.run_of_csAssert hp
  have hdomain := chunk_inDomain hinv (busy_of_not_idle hinv (by rw [hf]; decide))
  obtain ⟨u, hrun, hpos⟩ := program_run_async
    (s := { s with
      csState := .asserted
      trace := s.trace ++ [.cs s.config.csAssertLevel]
      pos := .wOpcode }) hi hf ha rfl hdomain
  have hprogram : runSteps (5 + s.chunk.stageM) s = .next u := by
    rw [show 5 + s.chunk.stageM = 4 + s.chunk.stageM + 1 by omega,
      runSteps_cons (step_csAssert hinv hi hp)]
    exact hrun.steps
  have hframe := hrun.frame
  have huf : u.fsm = .run := hframe.fsm.trans hf
  have hrespond := step_acceptRespond (hframe.no_input hi) huf hpos
  refine ⟨u, u.toWaitIrq.respond .ok [], hprogram, huf, hrun.trace, ?_, rfl, hframe.csState,
    hframe.ctx, hframe.ci, rfl⟩
  rw [show 6 + s.chunk.stageM = 5 + s.chunk.stageM + 1 by omega, runSteps_add 1 hprogram]
  exact runSteps_one hrespond

end Sys2Proof.Machine

/-! The encoding (30_encoding.md): the fields of an encoded command word are the ones put in, the packed
command bytes read back, so decoding inverts encoding; and a decoded command encodes to the word it came
from. -/

namespace Sys2Proof

/-! ### The fields of a command word (R101) -/

theorem cwCmdLen_mkCw (o : Op) (l : BitVec 3) (b : BitVec 1) : cwCmdLen (mkCw o l b) = l := by
  unfold cwCmdLen mkCw
  generalize o.code = c
  revert c l b
  decide

theorem cwOrd_mkCw (o : Op) (l : BitVec 3) (b : BitVec 1) : cwOrd (mkCw o l b) = b := by
  unfold cwOrd mkCw
  generalize o.code = c
  revert c l b
  decide

theorem cwReserved_mkCw (o : Op) (l : BitVec 3) (b : BitVec 1) : cwReserved (mkCw o l b) = 0 := by
  unfold cwReserved mkCw
  generalize o.code = c
  revert c l b
  decide

/-- Every selector is read back from its OP value (R105). -/
theorem opOfCode_code (o : Op) : opOfCode o.code = some o := by
  cases o <;> rfl

/-- A word with fields R106 allows its selector passes the field checks. -/
theorem decodeCw_mkCw {o : Op} {l : BitVec 3} {b : BitVec 1} (h : o.fieldsOk l b) :
    decodeCw (mkCw o l b) = .ok o := by
  obtain ⟨hord, hmax, hcmd⟩ := h
  simp only [decodeCw, cwReserved_mkCw, Laws.OpField.mkCw_op, opOfCode_code, cwOrd_mkCw,
    cwCmdLen_mkCw]
  rw [if_neg (by simp), if_neg (by simpa using hord), if_neg (by simpa using hmax),
    if_neg (by simpa using hcmd)]

/-- A well-formed record whose word is built from legal fields decodes to its operands. -/
theorem decode_of_mkCw {r : Record} {o : Op} {l : BitVec 3} {b : BitVec 1}
    (hcw : r.cw = mkCw o l b) (hwf : r.wf = true) (h : o.fieldsOk l b) :
    decode r = .ok (operandsOf r o) := by
  simp [decode, hwf, hcw, decodeCw_mkCw h]

/-! ### Command bytes (R103, R109) -/

/-- Command byte `j` is `CMDB[8j+7 : 8j]` (R103). -/
theorem cmdBytes_eq_map (n : Nat) (w : Word) :
    cmdBytes n w = (List.range n).map fun j => w.extractLsb' (8 * j) 8 := by
  induction n generalizing w with
  | zero => rfl
  | succ n ih =>
    have hshift : ∀ j, (w >>> 8).extractLsb' (8 * j) 8 = w.extractLsb' (8 * (j + 1)) 8 := by
      intro j
      ext i hi
      simp only [BitVec.getElem_extractLsb', BitVec.getLsbD_ushiftRight]
      congr 1
      omega
    simp only [cmdBytes, ih, hshift, List.range_succ_eq_map, List.map_cons, List.map_map,
      Function.comp_def, Nat.mul_zero, Nat.succ_eq_add_one]

theorem cmdBytes_length (n : Nat) (w : Word) : (cmdBytes n w).length = n := by
  simp [cmdBytes_eq_map]

/-- Byte `j` of a packed command, read back from its place (R109). -/
theorem extractLsb'_packCmdb {bs : List Byte} {j : Nat} (hj : j < bs.length) (h : bs.length ≤ 4) :
    (packCmdb bs).extractLsb' (8 * j) 8 = bs[j] := by
  induction bs generalizing j with
  | nil => cases hj
  | cons x bs ih =>
    simp only [List.length_cons] at hj h
    cases j with
    | zero =>
      ext i hi
      have : i < 32 := by omega
      simp [packCmdb, hi, this]
    | succ j =>
      rw [List.getElem_cons_succ, ← ih (by omega) (by omega)]
      ext i hi
      have hplace : 8 * (j + 1) + i = 8 * j + i + 8 := by omega
      have hword : 8 * j + i + 8 < 32 := by omega
      simp [packCmdb, hplace, hword, ← BitVec.getLsbD_eq_getElem]

/-- At most four packed command bytes are read back (R103, R109). -/
theorem cmdBytes_packCmdb {bs : List Byte} (h : bs.length ≤ 4) :
    cmdBytes bs.length (packCmdb bs) = bs := by
  rw [cmdBytes_eq_map]
  refine List.ext_getElem (by simp) fun j _ hj => ?_
  simp [extractLsb'_packCmdb hj h]

/-! ### Decoding an encoding -/

/-- The record of a command with send bytes is well formed where TXLEN can count them. -/
theorem encodeTx_wf (o : Op) {tx : List Byte} (rxLen : Word) (h : txWf tx = true) :
    (encodeTx o tx rxLen).wf = true := by
  have hlt : tx.length < 2 ^ 32 := by simpa [txWf] using h
  exact decide_eq_true (Nat.mod_eq_of_lt hlt).symm

/-- A selector without ORD and command bytes may leave both fields 0. -/
theorem fieldsOk_zero (o : Op) : o.fieldsOk 0 0 :=
  ⟨fun _ => rfl, by decide, fun _ => rfl⟩

/-- The record of a command with send bytes decodes to the operands it was given. -/
theorem decode_encodeTx (o : Op) {tx : List Byte} (rxLen : Word) (h : txWf tx = true) :
    decode (encodeTx o tx rxLen) = .ok (operandsOf (encodeTx o tx rxLen) o) :=
  decode_of_mkCw rfl (encodeTx_wf o rxLen h) (fieldsOk_zero o)

/-- CMDLEN holds the number of at most four command bytes. -/
theorem toNat_cmdLen {cmd : List Byte} (h : cmd.length ≤ 4) :
    (BitVec.ofNat 3 cmd.length).toNat = cmd.length :=
  Nat.mod_eq_of_lt (by omega)

/-- The record of a command with command bytes decodes to its operands. -/
theorem decode_encodeCmd {o : Op} {cmd : List Byte} (rxLen : Word) (ho : o.takesCmd = true)
    (h : cmd.length ≤ 4) :
    decode (encodeCmd o cmd rxLen) = .ok (operandsOf (encodeCmd o cmd rxLen) o) :=
  decode_of_mkCw rfl rfl
    ⟨fun _ => rfl, by rwa [toNat_cmdLen h], fun hno => by rw [ho] at hno; cases hno⟩

/-- The command bytes of that record are the command's. -/
theorem cmdBytes_encodeCmd (o : Op) {cmd : List Byte} (rxLen : Word) (h : cmd.length ≤ 4) :
    cmdBytes (cwCmdLen (encodeCmd o cmd rxLen).cw).toNat (encodeCmd o cmd rxLen).cmdb = cmd := by
  simp only [encodeCmd, cwCmdLen_mkCw, toNat_cmdLen h]
  exact cmdBytes_packCmdb h

theorem bitOrderOf_bit (ord : BitOrder) : bitOrderOf ord.bit = ord := by
  cases ord <;> rfl

/-- Settles O1: the fields of the encoded word and the packed bytes are read back, row by row. -/
theorem encodeThenDecode : Obligations.EncodeThenDecode := by
  intro i hwf
  cases i with
  | configure ord cfg =>
    have hfields : Op.fieldsOk .configure 0 ord.bit :=
      ⟨nofun, by decide, fun _ => rfl⟩
    rw [decode_of_mkCw (r := encode (.configure ord cfg)) rfl rfl hfields]
    simp [operandsOf, encode, cwOrd_mkCw, bitOrderOf_bit]
  | registerCallback cbh udata =>
    exact decode_of_mkCw (r := encode (.registerCallback cbh udata)) rfl rfl (fieldsOk_zero _)
  | send tx => exact decode_encodeTx .send 0 hwf
  | sendRecvFd tx rxLen => exact decode_encodeTx .sendRecvFd rxLen hwf
  | sendAsync tx => exact decode_encodeTx .sendAsync 0 hwf
  | receive cmd rxLen =>
    have hlen : cmd.length ≤ 4 := by simpa [Instr.wf, cmdWf] using hwf
    rw [encode, decode_encodeCmd rxLen rfl hlen, operandsOf, cmdBytes_encodeCmd _ _ hlen]
    rfl
  | sendRecv cmd rxLen =>
    have hlen : cmd.length ≤ 4 := by simpa [Instr.wf, cmdWf] using hwf
    rw [encode, decode_encodeCmd rxLen rfl hlen, operandsOf, cmdBytes_encodeCmd _ _ hlen]
    rfl
  | sendRecvAsync cmd rxLen =>
    have hlen : cmd.length ≤ 4 := by simpa [Instr.wf, cmdWf] using hwf
    rw [encode, decode_encodeCmd rxLen rfl hlen, operandsOf, cmdBytes_encodeCmd _ _ hlen]
    rfl

/-! ### Encoding what was decoded -/

/-- What a decoded record is: well formed, with a legal word of the selector whose operands it gives. -/
theorem decode_ok {r : Record} {i : Instr} (h : decode r = .ok i) :
    ∃ o, r.wf = true ∧ i = operandsOf r o ∧ r.cw = mkCw o (cwCmdLen r.cw) (cwOrd r.cw) ∧
      o.fieldsOk (cwCmdLen r.cw) (cwOrd r.cw) := by
  unfold decode at h
  split_ifs at h with hwf
  cases hcw : decodeCw r.cw with
  | error e => simp [hcw] at h
  | ok o =>
    obtain ⟨hword, hfields⟩ := decodeCw_ok hcw
    simp only [hcw, Except.ok.injEq] at h
    exact ⟨o, hwf, h.symm, hword, hfields⟩

theorem bit_bitOrderOf (b : BitVec 1) : (bitOrderOf b).bit = b := by
  revert b
  decide

/-- A well-formed record's send bytes can be counted. -/
theorem txWf_of_wf {r : Record} (h : r.wf = true) : txWf r.tx = true := by
  have hlen : r.tx.length = r.txlen.toNat := by simpa [Record.wf] using h
  simpa [txWf, hlen] using r.txlen.isLt

/-- The operands of a well-formed record under a legal word make a well-formed command, whose encoded
word has the record's fields. -/
theorem operandsOf_wf {r : Record} {o : Op} (hwf : r.wf = true)
    (h : o.fieldsOk (cwCmdLen r.cw) (cwOrd r.cw)) :
    (operandsOf r o).wf = true ∧
      (encode (operandsOf r o)).cw = mkCw o (cwCmdLen r.cw) (cwOrd r.cw) := by
  obtain ⟨hord, hmax, hcmd⟩ := h
  have htx := txWf_of_wf hwf
  have hbytes : cmdWf (cmdBytes (cwCmdLen r.cw).toNat r.cmdb) = true := by
    simpa [cmdWf, cmdBytes_length] using hmax
  have hlen : BitVec.ofNat 3 (cmdBytes (cwCmdLen r.cw).toNat r.cmdb).length = cwCmdLen r.cw := by
    simp [cmdBytes_length]
  cases o with
  | configure => exact ⟨rfl, by rw [hcmd rfl]; exact congrArg (mkCw _ 0) (bit_bitOrderOf _)⟩
  | registerCallback => exact ⟨rfl, by rw [hcmd rfl, hord rfl]; rfl⟩
  | send => exact ⟨htx, by rw [hcmd rfl, hord rfl]; rfl⟩
  | sendRecvFd => exact ⟨htx, by rw [hcmd rfl, hord rfl]; rfl⟩
  | sendAsync => exact ⟨htx, by rw [hcmd rfl, hord rfl]; rfl⟩
  | receive => exact ⟨hbytes, by rw [hord rfl]; exact congrArg (mkCw _ · 0) hlen⟩
  | sendRecv => exact ⟨hbytes, by rw [hord rfl]; exact congrArg (mkCw _ · 0) hlen⟩
  | sendRecvAsync => exact ⟨hbytes, by rw [hord rfl]; exact congrArg (mkCw _ · 0) hlen⟩

/-- The encoding of a well-formed command is a well-formed record. -/
theorem encode_wf {i : Instr} (h : i.wf = true) : (encode i).wf = true := by
  cases i with
  | send tx => exact encodeTx_wf _ _ h
  | sendRecvFd tx rxLen => exact encodeTx_wf _ _ h
  | sendAsync tx => exact encodeTx_wf _ _ h
  | configure ord cfg => rfl
  | registerCallback cbh udata => rfl
  | receive cmd rxLen => rfl
  | sendRecv cmd rxLen => rfl
  | sendRecvAsync cmd rxLen => rfl

/-- Settles O2: an accepted word is rebuilt from its fields, and the operands keep them. -/
theorem decodedWordIsReencoded : Obligations.DecodedWordIsReencoded := by
  intro r i h
  obtain ⟨o, hwf, rfl, hword, hfields⟩ := decode_ok h
  obtain ⟨hi, hcw⟩ := operandsOf_wf hwf hfields
  exact ⟨hi, hcw.trans hword.symm, encode_wf hi⟩

/-! ### The rows of the opcode table (R106) -/

/-- What a row pins of a word: it fixes OP and the reserved bits, and the fields its selector does not
take. -/
theorem row_pins {row : Op × Word × Word} (h : row ∈ opcodeRows) :
    cwReserved row.2.2 = BitVec.allOnes 24 ∧ cwReserved row.2.1 = 0 ∧
    cwOp row.2.2 = BitVec.allOnes 4 ∧ cwOp row.2.1 = row.1.code ∧
    (row.1.takesOrd = false → cwOrd row.2.2 = BitVec.allOnes 1 ∧ cwOrd row.2.1 = 0) ∧
    (row.1.takesCmd = false → cwCmdLen row.2.2 = BitVec.allOnes 3 ∧ cwCmdLen row.2.1 = 0) := by
  revert row
  decide

/-- Where the mask holds every bit of a field, a matching word has the row's field. -/
theorem field_of_and {cw mask word : Word} {start len : Nat} (hand : cw &&& mask = word)
    (hmask : mask.extractLsb' start len = BitVec.allOnes len) :
    cw.extractLsb' start len = word.extractLsb' start len := by
  rw [← hand, BitVec.extractLsb'_and, hmask, BitVec.and_allOnes]

/-- A word that matches a row is a legal word of the row's selector. -/
theorem eq_mkCw_of_matchesRow {cw : Word} {row : Op × Word × Word} (hrow : row ∈ opcodeRows)
    (h : matchesRow cw row = true) :
    cw = mkCw row.1 (cwCmdLen cw) (cwOrd cw) ∧ row.1.fieldsOk (cwCmdLen cw) (cwOrd cw) := by
  obtain ⟨hresMask, hres, hopMask, hop, hord, hcmd⟩ := row_pins hrow
  obtain ⟨hand, hmax⟩ : cw &&& row.2.2 = row.2.1 ∧ (cwCmdLen cw).toNat ≤ cmdLenMax := by
    simpa [matchesRow] using h
  have hword := append_cwFields cw
  rw [show cwReserved cw = 0 from (field_of_and hand hresMask).trans hres,
    show cwOp cw = row.1.code from (field_of_and hand hopMask).trans hop] at hword
  refine ⟨hword.symm, fun ho => ?_, hmax, fun ho => ?_⟩
  · obtain ⟨hmask, hzero⟩ := hord ho
    exact (field_of_and hand hmask).trans hzero
  · obtain ⟨hmask, hzero⟩ := hcmd ho
    exact (field_of_and hand hmask).trans hzero

/-- The selector of a record's operands is the one they were read for. -/
theorem operandsOf_op (r : Record) (o : Op) : (operandsOf r o).op = o := by
  cases o <;> rfl

end Sys2Proof

namespace Sys2Proof.Machine

/-- The command bytes the decoder reads are those of the record's fields (R101, R103). -/
theorem carriesCmd_cmdBytes (r : Record) :
    carriesCmd r (cmdBytes (cwCmdLen r.cw).toNat r.cmdb) := by
  refine ⟨?_, fun j hj => ?_⟩
  · simp [cmdBytes_length, cwCmdLen, BitVec.extractLsb'_toNat, Nat.shiftRight_eq_div_pow]
  · rw [cmdBytes_length] at hj
    simp [cmdBytes_eq_map, hj, BitVec.extractLsb'_toNat, Nat.shiftRight_eq_div_pow]

/-- The ORD bit is bit 7 of the word (R101). -/
theorem bitOrderOf_cwOrd (cw : Word) : bitOrderOf (cwOrd cw) = .lsbFirst ↔ cw.getLsbD 7 = true := by
  have hbit : cwOrd cw = BitVec.ofBool (cw.getLsbD 7) := by
    ext i hi
    obtain rfl : i = 0 := by omega
    simp [cwOrd]
  rw [hbit]
  cases cw.getLsbD 7 <;> decide

/-- The operands the decoder reads are those of the record's fields. -/
theorem carriesOperands_operandsOf (r : Record) (o : Op) : carriesOperands r (operandsOf r o) := by
  cases o with
  | configure => exact ⟨bitOrderOf_cwOrd r.cw, rfl⟩
  | registerCallback => exact ⟨rfl, rfl⟩
  | send => rfl
  | receive => exact ⟨carriesCmd_cmdBytes r, rfl⟩
  | sendRecv => exact ⟨carriesCmd_cmdBytes r, rfl⟩
  | sendRecvFd => exact ⟨rfl, rfl⟩
  | sendAsync => rfl
  | sendRecvAsync => exact ⟨carriesCmd_cmdBytes r, rfl⟩

/-- Settles O3: the row pins OP and the fields its selector does not take, so the word is a legal word
of that selector. -/
theorem tableRowDecodesToItsCommand : Obligations.TableRowDecodesToItsCommand := by
  intro r row hwf hrow hmatch
  obtain ⟨hword, hfields⟩ := eq_mkCw_of_matchesRow hrow hmatch
  exact ⟨_, decode_of_mkCw hword hwf hfields, operandsOf_op r row.1,
    carriesOperands_operandsOf r row.1⟩

/-- Settles O5: each word is decoded. -/
theorem sampleWordsDecode : Obligations.SampleWordsDecode := by
  unfold Obligations.SampleWordsDecode
  decide

/-! ### The request port -/

/-- Settles O6: the decoder checks the record before its word. -/
theorem illFormedRecordStops : Obligations.IllFormedRecordStops := by
  intro s r rest hi hne
  have hdec : decode r = .error .illFormedRecord := by simp [decode, Record.wf, hne]
  rw [step_of_command hi]
  simp [takeRecord, hdec]

/-- Settles O7: the port executes what the decoder answers. -/
theorem stepRunsDecodedCommand : Obligations.StepRunsDecodedCommand := by
  intro s r rest i hi hdec
  rw [step_of_command hi]
  simp [takeRecord, hdec]

end Sys2Proof.Machine

/-! The commands at the request port (41_engine_common.md, 45_session.md): every command is one admission
whose checks are its own, so what it does when accepted, refused or invalid, and what it never changes,
is read off the three ends of admission. -/

namespace Sys2Proof.Machine

/-! ### A command as an admission (R150) -/

/-- What an idle block does for an admitted command. -/
def acceptOf : Instr → State → State
  | .configure ord cfg, s => { s with bitOrder := ord, cfgOpaque := cfg }.respond .ok []
  | .registerCallback cbh udata, s =>
    { s with cbValid := true, cbHandle := cbh, cbUdata := udata }.respond .ok []
  | .send tx, s => s.latch (sendRequest .send tx)
  | .receive cmd rxLen, s => s.latch (recvRequest .receive cmd rxLen 0)
  | .sendRecv cmd rxLen, s => s.latch (recvRequest .sendRecv cmd rxLen cmd.length)
  | .sendRecvFd tx rxLen, s => s.latch (duplexRequest tx rxLen)
  | .sendAsync tx, s => s.latch (sendRequest .sendAsync tx)
  | .sendRecvAsync cmd rxLen, s => s.latch (recvRequest .sendRecvAsync cmd rxLen cmd.length)

/-- A well-formed command runs its admission checks. -/
theorem exec_eq_admission {i : Instr} (hwf : i.wf = true) (s : State) :
    exec i s = .next (s.admission true (admissibleOperands i) (callbackCondition i s.cbValid)
      (acceptOf i)) := by
  cases i with
  | configure ord cfg => rfl
  | registerCallback cbh udata => rfl
  | send tx => exact if_pos ((txCountable_eq ..).trans hwf)
  | receive cmd rxLen => simp only [exec, execReceive, (cmdLegal_eq ..).trans hwf]; rfl
  | sendRecv cmd rxLen => simp only [exec, execSendRecv, (cmdLegal_eq ..).trans hwf]; rfl
  | sendRecvFd tx rxLen => exact if_pos ((txCountable_eq ..).trans hwf)
  | sendAsync tx => exact if_pos ((txCountable_eq ..).trans hwf)
  | sendRecvAsync cmd rxLen => simp only [exec, execSendRecvAsync, (cmdLegal_eq ..).trans hwf]; rfl

/-- An idle block accepts a command that passes its checks. -/
theorem exec_accepts {i : Instr} {s : State} (hwf : i.wf = true) (ha : admissibleOperands i = true)
    (hc : callbackCondition i s.cbValid = true) (hb : s.busy = false) :
    exec i s = .next ((acceptOf i (s.withMask true)).withMask false) := by
  rw [exec_eq_admission hwf, ha, hc, admission_accepts _ _ hb]

/-! ### Accepted commands -/

/-- Settles O17. -/
theorem configureCompletes : Obligations.ConfigureCompletes := by
  intro ord cfg s hb
  exact exec_accepts rfl rfl rfl hb

/-- Settles O18: a nonzero handle is the command's operand condition. -/
theorem registerCallbackCompletes : Obligations.RegisterCallbackCompletes := by
  intro cbh udata s hb hcbh
  exact exec_accepts (i := .registerCallback cbh udata) rfl (bne_iff_ne.mpr hcbh) rfl hb

/-- Settles O19. -/
theorem sendCompletes : Obligations.SendCompletes := by
  intro tx s hb h1 hlt
  exact exec_accepts (i := .send tx) (decide_eq_true hlt) (decide_eq_true h1) rfl hb

/-- Settles O20. -/
theorem receiveCompletes : Obligations.ReceiveCompletes := by
  intro cmd rxLen s hb hle h1
  exact exec_accepts (i := .receive cmd rxLen) (decide_eq_true hle) (decide_eq_true h1) rfl hb

/-- Settles O21. -/
theorem sendRecvCompletes : Obligations.SendRecvCompletes := by
  intro cmd rxLen s hb hle hlt
  exact exec_accepts (i := .sendRecv cmd rxLen) (decide_eq_true hle) (decide_eq_true hlt) rfl hb

/-- Settles O22. -/
theorem sendRecvFdCompletes : Obligations.SendRecvFdCompletes := by
  intro tx rxLen s hb hlt h1
  exact exec_accepts (i := .sendRecvFd tx rxLen) (decide_eq_true hlt) (decide_eq_true h1) rfl hb

/-- Settles O23: the registered callback is the command's callback condition. -/
theorem sendAsyncCompletes : Obligations.SendAsyncCompletes := by
  intro tx s hb hcb h1 hlt
  exact exec_accepts (i := .sendAsync tx) (decide_eq_true hlt) (decide_eq_true h1) hcb hb

/-- Settles O24. -/
theorem sendRecvAsyncCompletes : Obligations.SendRecvAsyncCompletes := by
  intro cmd rxLen s hb hcb hle hlt
  exact exec_accepts (i := .sendRecvAsync cmd rxLen) (decide_eq_true hle) (decide_eq_true hlt) hcb hb

/-! ### Commands that are not accepted -/

/-- A write of `irq_mask` of the value it holds changes nothing. -/
theorem withMask_self {s : State} {b : Bool} (h : s.irqMask = b) : s.withMask b = s := by
  subst h; rfl

/-- Settles O25: the last check is the busy test. -/
theorem busyBlockRefuses : Obligations.BusyBlockRefuses := by
  intro i s hwf ha hc hb hm
  rw [exec_eq_admission hwf, ha, hc, admission_busy _ _ hb, withMask_self hm]
  rfl

/-- A command that fails a check before the busy test is answered `InvalidParameter`. -/
theorem exec_invalid {i : Instr} {s : State} (hwf : i.wf = true)
    (h : admissibleOperands i = false ∨ callbackCondition i s.cbValid = false) :
    exec i s = .next (s.refuse .invalidParameter) := by
  rw [exec_eq_admission hwf, admission_invalid]
  rcases h with h | h <;> simp [h]

/-- Settles O26. -/
theorem failedCheckIsInvalidParameter : Obligations.FailedCheckIsInvalidParameter := by
  intro i s hwf h
  exact exec_invalid hwf h

/-! ### The frame of a command -/

/-- A command that latches a request is a transfer command, and async where its request is. -/
theorem requestOf_op {i : Instr} {q : Request} (h : requestOf i = some q) :
    transferOp i.op = true ∧ q.op = i.op := by
  cases i <;> cases h <;> exact ⟨rfl, rfl⟩

/-- Settles O27: each end of the command's step writes its own registers only. -/
theorem commandFrame : Obligations.CommandFrame := by
  intro i s t h
  cases exec_cases h with
  | invalid h => subst h; simp
  | busy hb h => subst h; simp
  | configured ord cfg hi hb h => subst h hi; simp [Instr.op]
  | registered cbh udata hi hb h => subst h hi; simp [Instr.op]
  | latched q hi hwf hb ha hc h =>
    obtain ⟨htransfer, hop⟩ := requestOf_op hi
    subst h
    refine ⟨rfl, rfl, rfl, rfl, rfl, rfl, rfl, ⟨[], by simp⟩, fun _ => ⟨rfl, rfl⟩,
      fun _ => ⟨rfl, rfl, rfl⟩, fun hno => ?_, fun hsync => ?_⟩
    · rw [htransfer] at hno
      cases hno
    · simp [State.latch, State.withMask, hop, hsync]

end Sys2Proof.Machine

/-! What one step does to the ports, to the session and to the reference controller (10_state.md,
20_memory.md): a step of the block is at most one port operation followed by moves of the sequencer's own
registers, so the statements about every step are read off that one case split. -/

namespace Sys2Proof.Machine

/-! ### The branches of the engine (R160 to R165, R240) -/

theorem kickDone_isr {s : State} (h : s.fsm = .isr) : s.kickDone = s.awaitedDone := if_pos h

theorem kickDone_run {s : State} (h : s.fsm ≠ .isr) : s.kickDone = s.polledDone := if_neg h

theorem awaitedDone_last {s : State} (h : s.completedCount + 1 = s.totalChunks) :
    s.awaitedDone =
      { s with completedCount := s.completedCount + 1, pos := .finishAsyncCs } := if_pos h

theorem awaitedDone_more {s : State} (h : s.completedCount + 1 ≠ s.totalChunks) :
    s.awaitedDone =
      { s with completedCount := s.completedCount + 1, ci := s.ci + 1, pos := .wOpcode } := if_neg h

theorem afterOk_reads {s : State} (h : 0 < s.chunk.rxN) :
    s.afterOk = { s with pos := .readback 0 [] } := if_pos h

theorem afterOk_done {s : State} (h : s.chunk.rxN = 0) : s.afterOk = s.kickDone :=
  if_neg (by omega)

theorem afterClear_timeout (s : State) :
    s.afterClear none = { s with pos := .abortCs .hardwareTimeout } := rfl

theorem afterClear_error {s : State} {v : Word} (h : statusErr s.config v = true) :
    s.afterClear (some v) = { s with pos := .abortCs .unclassifiedError } := by
  simp [State.afterClear, classify, h]

theorem afterClear_ok {s : State} {v : Word} (h : statusErr s.config v = false) :
    s.afterClear (some v) = s.afterOk := by
  simp [State.afterClear, classify, h]

theorem afterIsrStatus_error {s : State} {v : Word} (h : statusErr s.config v = true) :
    s.afterIsrStatus v = { s with pos := .abortAsyncCs } := if_pos h

theorem afterIsrStatus_ok {s : State} {v : Word} (h : statusErr s.config v = false) :
    s.afterIsrStatus v = s.afterOk := if_neg (by rw [h]; decide)

/-- Outside the interrupt procedure the kick's path is the request's (R161, R231). -/
theorem afterStart_of_ne {s : State} (h : s.fsm ≠ .isr) :
    s.afterStart =
      if s.ctx.reqOp.isAsync then { s with pos := .acceptRespond }
      else { s with pollCnt := 0, pos := .poll } := if_neg h

theorem stepOpcode_of_some {s : State} {w : Word} (h : opcodeWord s.config s.chunk s.ctx.ord = some w) :
    stepOpcode s = .next { s.busWrite .opcode w with pos := slotPos s.chunk 0 } := by
  simp only [stepOpcode, h]
  rfl

theorem stepOpcode_of_none {s : State} (h : opcodeWord s.config s.chunk s.ctx.ord = none) :
    stepOpcode s = .fault .codecDomain := by
  simp only [stepOpcode, h]

theorem stepData_of_some {s : State} {j : Fin 8} {w : Word}
    (h : slotWord s.config s.chunk s.ctx.ord j = some w) :
    stepData s j = .next { s.busWrite (.data j) w with
      pos := if j.val + 1 < s.chunk.stageM then .wData (j + 1) else .wMblen } := by
  simp only [stepData, h]

theorem stepData_of_none {s : State} {j : Fin 8} (h : slotWord s.config s.chunk s.ctx.ord j = none) :
    stepData s j = .fault .codecDomain := by
  simp only [stepData, h]

/-- The register the `j`-th read of the chunk's readback reads. -/
def State.readbackReg (s : State) (j : Nat) : Reg := .data (readbackSlot s.chunk j)

/-- A slot read of `readback` that is not its last. -/
theorem stepReadback_more {s : State} {j : Nat} (w : List Word)
    (h : j + 1 < readbackCount s.config s.chunk) :
    stepReadback s j w = .next { s.busRead (s.readbackReg j) with
      pos := .readback (j + 1) (w ++ [s.readValue (s.readbackReg j)]) } := if_pos h

/-- The state after the last slot read of a readback that decodes to `bytes`. -/
def State.readBack (s : State) (j : Nat) (bytes : List Byte) : State :=
  { s.busRead (s.readbackReg j) with
    ctx := { s.ctx with rxBuf := fillRx s.ctx.rxBuf s.chunk.rxDst bytes } }

/-- The last slot read of `readback` decodes the words. -/
theorem stepReadback_last {s : State} {j : Nat} {w : List Word} {bytes : List Byte}
    (h : ¬ j + 1 < readbackCount s.config s.chunk)
    (hb : unpackSlots s.config (w ++ [s.readValue (s.readbackReg j)]) s.chunk.rxN s.ctx.ord =
      some bytes) :
    stepReadback s j w = .next (s.readBack j bytes).kickDone := by
  unfold State.readbackReg at hb
  simp only [stepReadback, if_neg h, hb]
  rfl

/-- The last slot read of `readback` has no value where its words cannot be decoded. -/
theorem stepReadback_fault {s : State} {j : Nat} {w : List Word}
    (h : ¬ j + 1 < readbackCount s.config s.chunk)
    (hb : unpackSlots s.config (w ++ [s.readValue (s.readbackReg j)]) s.chunk.rxN s.ctx.ord =
      none) :
    stepReadback s j w = .fault .codecDomain := by
  unfold State.readbackReg at hb
  simp only [stepReadback, if_neg h, hb]

/-! ### A step of the block as a port operation (R30, R60) -/

/-- The port operations of the block's procedures. -/
inductive PortOp (s : State) : State → Prop where
  | none : PortOp s s
  | write (r : Reg) (v : Word) (hr : r ≠ .ctrl) : PortOp s (s.busWrite r v)
  | length (c d : Nat) (x : Dir) : PortOp s (s.busWriteLength c d x)
  | mode : PortOp s (s.busSet .ctrl s.chunk.ctrlMask)
  | start : PortOp s (s.busSet .ctrl s.config.start)
  | clear (m : Word) : PortOp s (s.busClear .ctrl m)
  | read (r : Reg) : PortOp s (s.busRead r)
  | cs (x : CsState) : PortOp s (s.setCs x)
  | respond (st : Status) (rx : List (Option Byte)) : PortOp s (s.respond st rx)
  | emit (code : EventCode) (rx : List (Option Byte)) : PortOp s (s.emitCompletion code rx)

/-- `t` differs from `u` in the sequencer's own registers and the receive buffer alone. -/
structure SequencerMove (u t : State) : Prop where
  bitOrder : t.bitOrder = u.bitOrder
  cfgOpaque : t.cfgOpaque = u.cfgOpaque
  cbValid : t.cbValid = u.cbValid
  cbHandle : t.cbHandle = u.cbHandle
  cbUdata : t.cbUdata = u.cbUdata
  ctx : t.ctx = { u.ctx with rxBuf := t.ctx.rxBuf }
  totalChunks : t.totalChunks = u.totalChunks
  csState : t.csState = u.csState
  config : t.config = u.config
  controller : t.controller = u.controller
  inputs : t.inputs = u.inputs
  trace : t.trace = u.trace

theorem SequencerMove.trans {s t u : State} (h : SequencerMove s t) (g : SequencerMove t u) :
    SequencerMove s u where
  bitOrder := g.bitOrder.trans h.bitOrder
  cfgOpaque := g.cfgOpaque.trans h.cfgOpaque
  cbValid := g.cbValid.trans h.cbValid
  cbHandle := g.cbHandle.trans h.cbHandle
  cbUdata := g.cbUdata.trans h.cbUdata
  ctx := by rw [g.ctx, h.ctx]
  totalChunks := g.totalChunks.trans h.totalChunks
  csState := g.csState.trans h.csState
  config := g.config.trans h.config
  controller := g.controller.trans h.controller
  inputs := g.inputs.trans h.inputs
  trace := g.trace.trans h.trace

/-- A write of any of the registers a move may change. -/
theorem SequencerMove.of_writes (s : State) (b : Bool) (buf : List (Option Byte)) (ci cnt poll : Word)
    (f : Fsm) (p : Pos) (irq : Bool) :
    SequencerMove s { s with
      busy := b, ctx := { s.ctx with rxBuf := buf }, ci := ci, completedCount := cnt, pollCnt := poll,
      fsm := f, pos := p, irqPending := irq } :=
  ⟨rfl, rfl, rfl, rfl, rfl, rfl, rfl, rfl, rfl, rfl, rfl, rfl⟩

theorem SequencerMove.refl (s : State) : SequencerMove s s := .of_writes s ..

/-- A move to another position. -/
theorem SequencerMove.pos (s : State) (p : Pos) : SequencerMove s { s with pos := p } :=
  .of_writes s ..

/-- The end of a good kick counts it and moves on, on either path (R165, R240). -/
theorem kickDone_cases (s : State) :
    ∃ ci cnt p, s.kickDone = { s with ci := ci, completedCount := cnt, pos := p } := by
  unfold State.kickDone State.awaitedDone
  split
  · split
    · exact ⟨s.ci, _, _, rfl⟩
    · exact ⟨_, _, _, rfl⟩
  · exact ⟨_, s.completedCount, _, rfl⟩

theorem kickDone_move (s : State) : SequencerMove s s.kickDone := by
  obtain ⟨ci, cnt, p, h⟩ := kickDone_cases s
  rw [h]
  exact .of_writes s ..

theorem afterOk_move (s : State) : SequencerMove s s.afterOk := by
  unfold State.afterOk
  split
  · exact .pos s _
  · exact kickDone_move s

theorem afterClear_move (s : State) (p : Option Word) : SequencerMove s (s.afterClear p) := by
  unfold State.afterClear
  split
  · exact afterOk_move s
  · exact .pos s _

theorem afterIsrStatus_move (s : State) (v : Word) : SequencerMove s (s.afterIsrStatus v) := by
  unfold State.afterIsrStatus
  split
  · exact .pos s _
  · exact afterOk_move s

theorem stepStart_move (s : State) : SequencerMove (s.busSet .ctrl s.config.start) (stepStart s) := by
  obtain ⟨f, p, n, h⟩ := stepStart_writes s
  rw [h]
  exact .of_writes (s.busSet .ctrl s.config.start) ..

theorem stepOpcode_acts {s t : State} (h : stepOpcode s = .next t) :
    ∃ w p, t = { s.busWrite .opcode w with pos := p } := by
  cases hw : opcodeWord s.config s.chunk s.ctx.ord with
  | none => rw [stepOpcode_of_none hw] at h; cases h
  | some w => rw [stepOpcode_of_some hw] at h; cases h; exact ⟨w, _, rfl⟩

theorem stepData_acts {s t : State} {j : Fin 8} (h : stepData s j = .next t) :
    ∃ w p, t = { s.busWrite (.data j) w with pos := p } := by
  cases hw : slotWord s.config s.chunk s.ctx.ord j with
  | none => rw [stepData_of_none hw] at h; cases h
  | some w => rw [stepData_of_some hw] at h; cases h; exact ⟨w, _, rfl⟩

theorem stepReadback_acts {s t : State} {j : Nat} {w : List Word} (h : stepReadback s j w = .next t) :
    SequencerMove (s.busRead (s.readbackReg j)) t := by
  by_cases hmore : j + 1 < readbackCount s.config s.chunk
  · rw [stepReadback_more w hmore] at h
    cases h
    exact .pos _ _
  · cases hb : unpackSlots s.config (w ++ [s.readValue (s.readbackReg j)]) s.chunk.rxN s.ctx.ord with
    | none => rw [stepReadback_fault hmore hb] at h; cases h
    | some bytes =>
      rw [stepReadback_last hmore hb] at h
      cases h
      exact (SequencerMove.of_writes (s.busRead _) ..).trans (kickDone_move _)

/-- A step of a procedure is one port operation and a move of the sequencer. -/
theorem procStep_acts {s t : State} (h : procStep s = .next t) :
    ∃ u, PortOp s u ∧ SequencerMove u t := by
  cases hp : s.pos with
  | none => unfold procStep at h; rw [hp] at h; cases h; exact ⟨s, .none, .refl s⟩
  | csAssert => rw [procStep_csAssert hp] at h; cases h; exact ⟨_, .cs _, .pos _ _⟩
  | wOpcode =>
    rw [procStep_wOpcode hp] at h
    obtain ⟨w, p, rfl⟩ := stepOpcode_acts h
    exact ⟨_, .write .opcode w nofun, .pos _ p⟩
  | wData j =>
    rw [procStep_wData hp] at h
    obtain ⟨w, p, rfl⟩ := stepData_acts h
    exact ⟨_, .write (.data j) w nofun, .pos _ p⟩
  | wMblen => rw [procStep_wMblen hp] at h; cases h; exact ⟨_, .length .., .pos _ _⟩
  | sMode => rw [procStep_sMode hp] at h; cases h; exact ⟨_, .mode, .pos _ _⟩
  | sStart => rw [procStep_sStart hp] at h; cases h; exact ⟨_, .start, stepStart_move s⟩
  | poll =>
    rw [procStep_poll hp] at h; cases h
    exact ⟨_, .read .status, .of_writes (s.busRead .status) ..⟩
  | cMode p => rw [procStep_cMode hp] at h; cases h; exact ⟨_, .clear _, afterClear_move _ p⟩
  | readback j w =>
    rw [procStep_readback hp] at h
    exact ⟨_, .read _, stepReadback_acts h⟩
  | finishCs => rw [procStep_finishCs hp] at h; cases h; exact ⟨_, .cs _, .pos _ _⟩
  | finishRespond =>
    rw [procStep_finishRespond hp] at h; cases h
    exact ⟨_, .respond .ok s.out, .of_writes (s.respond .ok s.out) ..⟩
  | abortCs st => rw [procStep_abortCs hp] at h; cases h; exact ⟨_, .cs _, .pos _ _⟩
  | abortRespond st =>
    rw [procStep_abortRespond hp] at h; cases h
    exact ⟨_, .respond st s.out, .of_writes (s.respond st s.out) ..⟩
  | acceptRespond =>
    rw [procStep_acceptRespond hp] at h; cases h
    exact ⟨_, .respond .ok [], .of_writes (s.respond .ok []) ..⟩
  | isrClear => rw [procStep_isrClear hp] at h; cases h; exact ⟨_, .clear _, .pos _ _⟩
  | isrStatus =>
    rw [procStep_isrStatus hp] at h; cases h
    exact ⟨_, .read .status, afterIsrStatus_move _ _⟩
  | finishAsyncCs => rw [procStep_finishAsyncCs hp] at h; cases h; exact ⟨_, .cs _, .pos _ _⟩
  | finishAsyncEmit =>
    rw [procStep_finishAsyncEmit hp] at h; cases h
    exact ⟨_, .emit .finished s.out, .of_writes (s.emitCompletion .finished s.out) ..⟩
  | abortAsyncCs => rw [procStep_abortAsyncCs hp] at h; cases h; exact ⟨_, .cs _, .pos _ _⟩
  | abortAsyncEmit =>
    rw [procStep_abortAsyncEmit hp] at h; cases h
    exact ⟨_, .emit .error s.out, .of_writes (s.emitCompletion .error s.out) ..⟩

/-- What a step of the block can be: nothing, the interrupt's entry, or a step of the procedure. -/
theorem blockStep_cases {s t : State} (h : blockStep s = .next t) :
    t = s ∨ (s.fsm = .waitIrq ∧ t = s.takeInterrupt) ∨
      ((s.fsm = .run ∨ s.fsm = .isr) ∧ procStep s = .next t) := by
  cases hf : s.fsm with
  | idle => simp only [blockStep, hf] at h; cases h; exact .inl rfl
  | waitIrq =>
    simp only [blockStep, hf] at h
    split at h
    · cases h; exact .inr (.inl ⟨rfl, rfl⟩)
    · cases h; exact .inl rfl
  | run => exact .inr (.inr ⟨.inl rfl, blockStep_run hf ▸ h⟩)
  | isr => exact .inr (.inr ⟨.inr rfl, blockStep_isr hf ▸ h⟩)

/-- A step of the block is one port operation and a move of the sequencer. -/
theorem blockStep_acts {s t : State} (h : blockStep s = .next t) :
    ∃ u, PortOp s u ∧ SequencerMove u t := by
  rcases blockStep_cases h with rfl | ⟨_, rfl⟩ | ⟨_, hproc⟩
  · exact ⟨_, .none, .refl _⟩
  · exact ⟨s, .none, .of_writes s ..⟩
  · exact procStep_acts hproc

/-! ### What a step emits (R41, R60) -/

/-- What a step does to the trace and to chip-select. -/
inductive Emission (s t : State) : Prop where
  | silent (ht : t.trace = s.trace) (hcs : t.csState = s.csState)
  | event {e : Event} (ht : t.trace = s.trace ++ [e]) (hcs : t.csState = s.csState)
      (he : ∀ l, e ≠ .cs l)
  | level (ht : t.trace = s.trace ++ [.cs (csLevel s.config t.csState)])
      (hcs : t.csState ≠ s.csState)

theorem PortOp.emission {s u : State} (h : PortOp s u) : Emission s u := by
  cases h with
  | none => exact .silent rfl rfl
  | write r v hr => exact .event rfl rfl nofun
  | length c d x => exact .event rfl rfl nofun
  | mode => exact .event rfl rfl nofun
  | start => exact .event rfl rfl nofun
  | clear m => exact .event rfl rfl nofun
  | read r => exact .event rfl rfl nofun
  | respond st rx => exact .event rfl rfl nofun
  | emit code rx => exact .event rfl rfl nofun
  | cs x =>
    by_cases hx : s.csState = x
    · rw [setCs_of_eq hx]
      exact .silent rfl rfl
    · rw [setCs_of_ne hx]
      exact .level rfl (Ne.symm hx)

/-- An emission depends on the trace and chip-select alone. -/
theorem Emission.congr {s u t : State} (h : Emission s u) (ht : t.trace = u.trace)
    (hcs : t.csState = u.csState) : Emission s t := by
  cases h with
  | silent hu hucs => exact .silent (ht.trans hu) (hcs.trans hucs)
  | event hu hucs he => exact .event (ht.trans hu) (hcs.trans hucs) he
  | level hu hucs => exact .level (by rw [ht, hcs, hu]) (by rwa [hcs])

/-- Taking an input is no emission. -/
theorem Emission.of_popInput {s t : State} (h : Emission s.popInput t) : Emission s t := by
  cases h with
  | silent ht hcs => exact .silent ht hcs
  | event ht hcs he => exact .event ht hcs he
  | level ht hcs => exact .level ht hcs

theorem blockStep_emission {s t : State} (h : blockStep s = .next t) : Emission s t := by
  obtain ⟨u, hop, hmove⟩ := blockStep_acts h
  exact hop.emission.congr hmove.trace hmove.csState

theorem exec_emission {i : Instr} {s t : State} (h : exec i s = .next t) : Emission s t := by
  cases exec_cases h with
  | invalid h => subst h; exact .event rfl rfl nofun
  | busy hb h => subst h; exact .event rfl rfl nofun
  | configured ord cfg hi hb h => subst h; exact .event rfl rfl nofun
  | registered cbh udata hi hb h => subst h; exact .event rfl rfl nofun
  | latched q hi hwf hb ha hc h => subst h; exact .silent rfl rfl

theorem irqPulse_oracle {s : State} (h : s.controller = .oracle) : s.irqPulse = s.latchIrq := by
  simp only [State.irqPulse, h]

theorem irqPulse_ready {s : State} {c : RefController} (h : s.controller = .reference c)
    (hr : c.irqReady = true) :
    s.irqPulse =
      ({ s with controller := .reference { c with irqReady := false } } : State).latchIrq := by
  simp only [State.irqPulse, h, if_pos hr]

theorem irqPulse_not_ready {s : State} {c : RefController} (h : s.controller = .reference c)
    (hr : c.irqReady = false) : s.irqPulse = s := by
  simp [State.irqPulse, h, hr]

theorem transferEnd_oracle {s : State} (h : s.controller = .oracle) : s.transferEnd = s := by
  simp only [State.transferEnd, h]

/-- The end of a transfer does nothing where there is none. -/
theorem transferEnd_idle {s : State} {c : RefController} (h : s.controller = .reference c)
    (hk : c.kick = none) : s.transferEnd = s := by
  simp only [State.transferEnd, h, hk]

theorem transferEnd_kick {s : State} {c : RefController} {k : Kick}
    (h : s.controller = .reference c) (hk : c.kick = some k) :
    s.transferEnd = { s with
      controller := .reference (c.endKick s.config k
        (drawBytes (k.cmdBytes + k.dataBytes) c.slave s.freeCount).1
        (drawBytes (k.cmdBytes + k.dataBytes) c.slave s.freeCount).2.1)
      freeCount := (drawBytes (k.cmdBytes + k.dataBytes) c.slave s.freeCount).2.2 } := by
  simp only [State.transferEnd, h, hk]

/-! ### The step that takes an input -/

theorem step_of_tick {s : State} {rest : List Input} (hi : s.inputs = .tick :: rest) :
    step s = blockStep { s with inputs := rest } := by
  simp only [step, hi, State.popInput, List.tail_cons]

theorem step_of_irqPulse {s : State} {rest : List Input} (hi : s.inputs = .irqPulse :: rest) :
    step s = .next ({ s with inputs := rest } : State).irqPulse := by
  simp only [step, hi, State.popInput, List.tail_cons]

theorem step_of_transferEnd {s : State} {rest : List Input} (hi : s.inputs = .transferEnd :: rest) :
    step s = .next ({ s with inputs := rest } : State).transferEnd := by
  simp only [step, hi, State.popInput, List.tail_cons]

theorem step_of_reset {s : State} {rest : List Input} (hi : s.inputs = .reset :: rest) :
    step s = .next ({ s with inputs := rest } : State).hardReset := by
  simp only [step, hi, State.popInput, List.tail_cons]

/-- A pulse writes the latch and the controller's own flag. -/
theorem irqPulse_cases (s : State) :
    ∃ c irq, s.irqPulse = { s with controller := c, irqPending := irq } := by
  unfold State.irqPulse
  split
  · exact ⟨s.controller, _, rfl⟩
  · split
    · exact ⟨_, _, rfl⟩
    · exact ⟨s.controller, s.irqPending, rfl⟩

/-- The end of a transfer is the controller's own step. -/
theorem transferEnd_cases (s : State) :
    ∃ c n, s.transferEnd = { s with controller := c, freeCount := n } := by
  unfold State.transferEnd
  split
  · exact ⟨s.controller, s.freeCount, rfl⟩
  · split
    · exact ⟨s.controller, s.freeCount, rfl⟩
    · exact ⟨_, _, rfl⟩

/-- A step's emission; a reset's apart, which moves chip-select without an event (R301). -/
theorem step_emission {s t : State} (h : step s = .next t) (hr : noReset s) : Emission s t := by
  cases step_cases h with
  | block u hu _ hblock =>
    have hem := blockStep_emission hblock
    rcases hu with rfl | rfl
    · exact hem
    · exact hem.of_popInput
  | illegal r rest hi ht => subst ht; exact .event rfl rfl nofun
  | command r rest i hi hd hexec => exact (exec_emission hexec).of_popInput
  | pulse rest hi ht =>
    obtain ⟨c, irq, heq⟩ := irqPulse_cases s.popInput
    subst ht; rw [heq]; exact .silent rfl rfl
  | ended rest hi ht =>
    obtain ⟨c, n, heq⟩ := transferEnd_cases s.popInput
    subst ht; rw [heq]; exact .silent rfl rfl
  | reset rest hi ht => exact absurd (by rw [hi]; rfl) hr

/-- Settles O28: a step emits nothing or one event; a reset nothing. -/
theorem stepEmitsAtMostOneEvent : Obligations.StepEmitsAtMostOneEvent := by
  intro s t h
  by_cases hr : noReset s
  · cases step_emission h hr with
    | silent ht hcs => exact ⟨[], by simp, by simpa using ht⟩
    | event ht hcs he => exact ⟨_, by simp, ht⟩
    | level ht hcs => exact ⟨_, by simp, ht⟩
  · cases step_cases h with
    | reset rest hi ht => exact ⟨[], by simp, by subst ht; simp [State.hardReset]⟩
    | block u hu hno hblock => exact absurd hno hr
    | illegal r rest hi ht => exact absurd (by simp [noReset, hi]) hr
    | command r rest i hi hd hexec => exact absurd (by simp [noReset, hi]) hr
    | pulse rest hi ht => exact absurd (by simp [noReset, hi]) hr
    | ended rest hi ht => exact absurd (by simp [noReset, hi]) hr

/-- Settles O29: the chip-select output is the one operation that emits `CS`, and it does on a change. -/
theorem chipSelectEventsMarkChanges : Obligations.ChipSelectEventsMarkChanges := by
  intro s t h hr
  cases step_emission h hr with
  | silent ht hcs => exact ⟨fun hne => absurd hcs hne, fun _ l => by rw [ht]⟩
  | event ht hcs he =>
    refine ⟨fun hne => absurd hcs hne, fun _ l => ?_⟩
    simp [ht, csCount, he l]
  | level ht hcs => exact ⟨fun _ => ht, fun heq => absurd heq hcs⟩

/-- No step changes the configuration (R9). -/
theorem step_config {s t : State} (h : step s = .next t) : t.config = s.config := by
  cases step_cases h with
  | block u hu _ hblock =>
    obtain ⟨v, hop, hmove⟩ := blockStep_acts hblock
    have hv : v.config = u.config := by cases hop <;> rfl
    rcases hu with rfl | rfl
    · exact hmove.config.trans hv
    · exact hmove.config.trans hv
  | illegal r rest hi ht => subst ht; rfl
  | command r rest i hi hd hexec =>
    obtain ⟨_, _, hconfig, _⟩ := commandFrame i _ t hexec
    exact hconfig
  | pulse rest hi ht =>
    obtain ⟨c, irq, heq⟩ := irqPulse_cases s.popInput
    subst ht; rw [heq]; rfl
  | ended rest hi ht =>
    obtain ⟨c, n, heq⟩ := transferEnd_cases s.popInput
    subst ht; rw [heq]; rfl
  | reset rest hi ht => subst ht; rfl

/-- Settles O30: a change of chip-select adds one event of its new level, any other step none. -/
theorem chipSelectStaysBalanced : Obligations.ChipSelectStaysBalanced := by
  intro s t h hr hbal
  have hcfg := step_config h
  obtain ⟨hchange, hsame⟩ := chipSelectEventsMarkChanges s t h hr
  unfold csBalanced at hbal ⊢
  by_cases hcs : t.csState = s.csState
  · rwa [hcfg, hsame hcs, hsame hcs, hcs]
  · have htrace := hchange hcs
    rw [hcfg, htrace]
    cases hs : s.csState with
    | asserted =>
      cases ht : t.csState with
      | asserted => exact absurd (ht.trans hs.symm) hcs
      | deasserted => simpa [hs, csCount, csLevel] using hbal
    | deasserted =>
      cases ht : t.csState with
      | asserted => simpa [hs, csCount, csLevel] using hbal
      | deasserted => exact absurd (ht.trans hs.symm) hcs

end Sys2Proof.Machine

/-! The reference controller over a step (20_memory.md section 5): its registers under `W`, `S` and `C`,
its transfer, which only START begins and only an input ends, and the interrupt it may raise. -/

namespace Sys2Proof.Machine

/-! ### Register accesses (R65) -/

/-- A write changes the register it names alone. -/
theorem stored_write (c : RefController) {r : Reg} (q : Reg) (v : Word) (hr : r ≠ .status) :
    (c.write r v).stored q = if q = r then v else c.stored q := by
  cases r with
  | status => exact absurd rfl hr
  | ctrl => cases q <;> simp [RefController.write, RefController.stored]
  | opcode => cases q <;> simp [RefController.write, RefController.stored]
  | mblen => cases q <;> simp [RefController.write, RefController.stored]
  | data j =>
    cases q with
    | data i =>
      simp only [RefController.write, RefController.stored, Reg.data.injEq, Fin.getElem_fin,
        Vector.getElem_set, Fin.ext_iff, eq_comm]
    | ctrl => simp [RefController.write, RefController.stored]
    | opcode => simp [RefController.write, RefController.stored]
    | mblen => simp [RefController.write, RefController.stored]
    | status => simp [RefController.stored]

/-- The side effect of START leaves every register as it is. -/
theorem stored_setBits (c : RefController) (cfg : Config) (ord : BitOrder) (r q : Reg) (m : Word) :
    (c.setBits cfg ord r m).stored q = (c.write r (c.stored r ||| m)).stored q := by
  unfold RefController.setBits
  dsimp only
  split
  · cases q <;> rfl
  · rfl

/-- Settles O53: all three accesses are writes of one register. -/
theorem registerAccessEffects : Obligations.RegisterAccessEffects := by
  intro c cfg ord r q v hr
  refine ⟨stored_write c q v hr, ?_, ?_⟩
  · rw [stored_setBits, stored_write c q _ hr]
    split
    · subst q; rfl
    · rfl
  · rw [RefController.clearBits, stored_write c q _ hr]
    split
    · subst q; rfl
    · rfl

/-! ### The transfer and its interrupt over a step (R81) -/

/-- The mode bits of a chunk: MB_EN, and DUPLEX_EN in full duplex (R191, R212). -/
theorem ctrlMask_cases (g : Config) (x : Context) (i : Nat) :
    (chunkOf g x i).ctrlMask = g.mbEn ∨
      (x.reqOp = .sendRecvFd ∧ (chunkOf g x i).ctrlMask = g.mbEn ||| g.duplexEn) := by
  have hsend : ∀ n, (hdSendChunk g x.tx n i).ctrlMask = g.mbEn := by
    intro n
    unfold hdSendChunk
    dsimp only
    split_ifs <;> rfl
  cases hop : x.reqOp with
  | send => exact .inl (by simp [chunkOf, hop, hsend])
  | sendAsync => exact .inl (by simp [chunkOf, hop, hsend])
  | sendRecvFd => exact .inr ⟨rfl, by simp [chunkOf, hop, fdChunkAt]⟩
  | receive => exact .inl (by simp [chunkOf, hop, hdRecvChunk])
  | sendRecv => exact .inl (by simp [chunkOf, hop, hdRecvChunk])
  | sendRecvAsync => exact .inl (by simp [chunkOf, hop, hdRecvChunk])
  | configure => exact .inl (by simp [chunkOf, hop, hdRecvChunk])
  | registerCallback => exact .inl (by simp [chunkOf, hop, hdRecvChunk])

/-- Setting a chunk's mode bits does not set START (R9). -/
theorem ctrlMask_and_start (s : State) : s.chunk.ctrlMask &&& s.config.start = 0 := by
  have hmb := mbEn_and_start s.config
  have hduplex := duplexEn_and_start s.config
  rcases ctrlMask_cases s.config s.ctx s.ci.toNat with h | ⟨_, h⟩
  · rw [State.chunk, h, hmb]
  · rw [State.chunk, h, BitVec.and_or_distrib_right, hmb, hduplex]
    rfl

@[simp] theorem write_kick (c : RefController) (r : Reg) (v : Word) : (c.write r v).kick = c.kick := by
  cases r <;> rfl

@[simp] theorem write_irqReady (c : RefController) (r : Reg) (v : Word) :
    (c.write r v).irqReady = c.irqReady := by
  cases r <;> rfl

/-- A set of bits other than START is a write. -/
theorem setBits_of_no_start {c : RefController} {cfg : Config} {ord : BitOrder} {r : Reg} {m : Word}
    (h : m &&& cfg.start = 0) : c.setBits cfg ord r m = c.write r (c.stored r ||| m) :=
  if_neg fun hstart => hstart.2 h

/-- START begins a transfer (R66). -/
theorem setBits_start (c : RefController) (cfg : Config) (ord : BitOrder) :
    c.setBits cfg ord .ctrl cfg.start =
      (c.write .ctrl (c.stored .ctrl ||| cfg.start)).startKick ord :=
  if_pos ⟨rfl, by rw [BitVec.and_self]; exact start_ne_zero cfg⟩

/-- What a step that ends no transfer does to the reference controller's transfer and interrupt: it gives
no interrupt, and only START touches the transfer. -/
structure TransferStep (s t : State) (c c' : RefController) : Prop where
  controller : t.controller = .reference c'
  irqReady : c.irqReady = false → c'.irqReady = false
  kick : c'.kick = c.kick ∨
    (c'.kick.isSome = true ∧ t.trace = s.trace ++ [.setBits .ctrl s.config.start])

theorem PortOp.transferStep {s u : State} {c : RefController} (h : PortOp s u)
    (hc : s.controller = .reference c) : ∃ c', TransferStep s u c c' := by
  cases h with
  | none => exact ⟨c, hc, id, .inl rfl⟩
  | write r v hr => exact ⟨c.write r v, by simp [State.busWrite, hc], by simp, .inl (by simp)⟩
  | length n d x =>
    exact ⟨c.setLength n d x, by simp [State.busWriteLength, hc], by simp [RefController.setLength],
      .inl (by simp [RefController.setLength])⟩
  | mode =>
    exact ⟨c.write .ctrl (c.stored .ctrl ||| s.chunk.ctrlMask),
      by simp [State.busSet, hc, setBits_of_no_start (ctrlMask_and_start s)], by simp,
      .inl (by simp)⟩
  | start =>
    exact ⟨_, by simp only [State.busSet, hc, setBits_start]; rfl, fun _ => rfl, .inr ⟨rfl, rfl⟩⟩
  | clear m =>
    exact ⟨c.clearBits .ctrl m, by simp [State.busClear, hc], by simp [RefController.clearBits],
      .inl (by simp [RefController.clearBits])⟩
  | read r => exact ⟨c, hc, id, .inl rfl⟩
  | cs x => exact ⟨c, hc, id, .inl rfl⟩
  | respond st rx => exact ⟨c, hc, id, .inl rfl⟩
  | emit code rx => exact ⟨c, hc, id, .inl rfl⟩

/-- A step that leaves the controller as it was. -/
theorem TransferStep.of_same {s t : State} {c : RefController} (hc : s.controller = .reference c)
    (ht : t.controller = s.controller) : ∃ c', TransferStep s t c c' :=
  ⟨c, ht.trans hc, id, .inl rfl⟩

/-- A pulse leaves the transfer as it is and uses up the interrupt. -/
theorem irqPulse_transferStep {s : State} {c : RefController} (hc : s.controller = .reference c) :
    ∃ c', TransferStep s s.irqPulse c c' := by
  cases hready : c.irqReady with
  | true =>
    exact ⟨{ c with irqReady := false }, by rw [irqPulse_ready hc hready]; rfl, fun _ => rfl,
      .inl rfl⟩
  | false => exact ⟨c, by rw [irqPulse_not_ready hc hready, hc], id, .inl rfl⟩

/-- Every step that ends no transfer is a transfer step. -/
theorem step_transferStep {s t : State} {c : RefController} (h : step s = .next t)
    (hc : s.controller = .reference c)
    (hno : s.inputs.head? ≠ some .transferEnd ∨ c.kick = none) : ∃ c', TransferStep s t c c' := by
  cases step_cases h with
  | block u hu _ hblock =>
    obtain ⟨v, hop, hmove⟩ := blockStep_acts hblock
    have hu' : u.controller = .reference c ∧ u.trace = s.trace ∧ u.config = s.config := by
      rcases hu with rfl | rfl
      · exact ⟨hc, rfl, rfl⟩
      · exact ⟨hc, rfl, rfl⟩
    obtain ⟨hctl, htrace, hcfg⟩ := hu'
    obtain ⟨c', hstep⟩ := hop.transferStep hctl
    refine ⟨c', hmove.controller.trans hstep.controller, hstep.irqReady, ?_⟩
    rw [hmove.trace, ← htrace, ← hcfg]
    exact hstep.kick
  | illegal r rest hi ht => exact TransferStep.of_same hc (by subst ht; rfl)
  | command r rest i hi hd hexec =>
    obtain ⟨_, _, _, hctl, _⟩ := commandFrame i _ t hexec
    exact TransferStep.of_same hc hctl
  | pulse rest hi ht =>
    obtain ⟨c', hstep⟩ := irqPulse_transferStep (s := s.popInput) hc
    subst ht
    exact ⟨c', { hstep with }⟩
  | ended rest hi ht =>
    have hk : c.kick = none := hno.resolve_left (by simp [hi])
    rw [transferEnd_idle (s := s.popInput) hc hk] at ht
    exact TransferStep.of_same hc (by subst ht; rfl)
  | reset rest hi ht => exact TransferStep.of_same hc (by subst ht; rfl)

/-! ### BUSY (R81) -/

/-- A word shows BUSY exactly where it keeps a bit of the mask. -/
theorem statusWord_busy (c : RefController) (cfg : Config) (raw : Word) :
    statusBusy cfg (c.statusWord cfg raw) = c.kick.isSome := by
  unfold RefController.statusWord statusBusy
  have hmask := busyMask_ne_zero cfg
  cases hk : c.kick.isSome with
  | true =>
    simp only [if_true]
    split_ifs with hraw
    · simpa [BitVec.and_or_distrib_right, hraw] using hmask
    · simpa using hraw
  | false => simp [BitVec.and_assoc]

/-- After the input that ends a transfer none is in progress. -/
theorem transferEnd_clears {s : State} {c : RefController} (hc : s.controller = .reference c) :
    ∃ c', s.transferEnd.controller = .reference c' ∧ c'.kick = none := by
  cases hk : c.kick with
  | none => exact ⟨c, by rw [transferEnd_idle hc hk]; exact hc, hk⟩
  | some k => exact ⟨_, by rw [transferEnd_kick hc hk], rfl⟩

/-- Settles O54: BUSY is made to agree with the transfer, and only START and its end's input touch it. -/
theorem busyShowsTransfer : Obligations.BusyShowsTransfer := by
  refine ⟨fun s c hc => ?_, fun c cfg ord => ?_, fun s t c h hc hk => ?_, fun s t c h hc hk hno => ?_,
    fun s c rest hc hi => ?_⟩
  · simp only [State.readValue, hc]
    exact statusWord_busy c s.config _
  · rw [setBits_start]
    rfl
  · obtain ⟨c', hstep⟩ := step_transferStep h hc (.inr hk)
    refine ⟨c', hstep.controller, fun hsome => ?_⟩
    rcases hstep.kick with heq | ⟨_, htrace⟩
    · rw [heq, hk] at hsome
      cases hsome
    · exact htrace
  · obtain ⟨c', hstep⟩ := step_transferStep h hc (.inl hno)
    refine ⟨c', hstep.controller, ?_⟩
    rcases hstep.kick with heq | ⟨hsome, _⟩
    · rw [heq, hk]
    · exact hsome
  · obtain ⟨c', hctl, hidle⟩ := transferEnd_clears (s := { s with inputs := rest }) hc
    exact ⟨_, c', step_of_transferEnd hi, hctl, hidle⟩

/-! ### The completion interrupt (R46, R81) -/

/-- A pulse is latched exactly while an async request is in flight (R46). -/
theorem latchIrq_eq (s : State) :
    s.latchIrq = { s with
      irqPending :=
        if s.busy = true ∧ (s.ctx.reqOp = .sendAsync ∨ s.ctx.reqOp = .sendRecvAsync) then true
        else s.irqPending } := by
  have hasync : s.ctx.reqOp.isAsync = true ↔
      s.ctx.reqOp = .sendAsync ∨ s.ctx.reqOp = .sendRecvAsync := by
    cases s.ctx.reqOp <;> decide
  unfold State.latchIrq State.asyncInFlight
  congr 1
  simp only [← hasync]
  cases s.busy with
  | false => simp
  | true => cases s.ctx.reqOp.isAsync <;> simp

/-- Settles O43. -/
theorem pulseIsLatchedOrDiscarded : Obligations.PulseIsLatchedOrDiscarded := by
  refine ⟨fun s rest hi hc => ?_, fun s rest c hi hc => ?_, fun c cfg ord => ?_,
    fun s t c h hc hready hno => ?_⟩
  · rw [step_of_irqPulse hi, irqPulse_oracle (s := { s with inputs := rest }) hc, latchIrq_eq]
  · rw [step_of_irqPulse hi]
    cases hready : c.irqReady with
    | true => rw [irqPulse_ready (s := { s with inputs := rest }) hc hready, latchIrq_eq]; rfl
    | false => rw [irqPulse_not_ready (s := { s with inputs := rest }) hc hready]; rfl
  · rw [setBits_start]
    rfl
  · obtain ⟨c', hstep⟩ := step_transferStep h hc hno
    exact ⟨c', hstep.controller, hstep.irqReady hready⟩

end Sys2Proof.Machine

/-! The session over a step (45_session.md, 60_exceptions.md): what a running request keeps fixed, that the
opaque configuration is never read, how a waiting command and the interrupt commute, and the steps that
are one state change: the interrupt's entry, a waiting block, a reset, several instances. -/

namespace Sys2Proof.Machine

/-! ### A running request's operands (R24, R261, R262) -/

/-- The session registers and the request's operands, the receive buffer apart, are those of `s`. -/
structure OperandsKept (s t : State) : Prop where
  bitOrder : t.bitOrder = s.bitOrder
  cfgOpaque : t.cfgOpaque = s.cfgOpaque
  cbValid : t.cbValid = s.cbValid
  cbHandle : t.cbHandle = s.cbHandle
  cbUdata : t.cbUdata = s.cbUdata
  ctx : t.ctx = { s.ctx with rxBuf := t.ctx.rxBuf }

/-- No port operation writes them. -/
theorem PortOp.operands {s u : State} (h : PortOp s u) : OperandsKept s u := by
  cases h <;> exact ⟨rfl, rfl, rfl, rfl, rfl, rfl⟩

theorem blockStep_operands {s t : State} (h : blockStep s = .next t) : OperandsKept s t := by
  obtain ⟨u, hop, hmove⟩ := blockStep_acts h
  have hkept := hop.operands
  exact ⟨hmove.bitOrder.trans hkept.bitOrder, hmove.cfgOpaque.trans hkept.cfgOpaque,
    hmove.cbValid.trans hkept.cbValid, hmove.cbHandle.trans hkept.cbHandle,
    hmove.cbUdata.trans hkept.cbUdata, by rw [hmove.ctx, hkept.ctx]⟩

/-- A busy block's answer to a command is a refusal. -/
theorem exec_refuses_of_busy {i : Instr} {s t : State} (h : exec i s = .next t)
    (hb : s.busy = true) : ∃ m st, t = (s.withMask m).refuse st := by
  cases exec_cases h with
  | invalid h => exact ⟨s.irqMask, _, h⟩
  | busy hb' h => exact ⟨false, _, h⟩
  | configured ord cfg hi hb' h => rw [hb] at hb'; cases hb'
  | registered cbh udata hi hb' h => rw [hb] at hb'; cases hb'
  | latched q hi hwf hb' ha hc h => rw [hb] at hb'; cases hb'

/-- While the block is busy, no step but a reset writes the operands. -/
theorem step_operands {s t : State} (h : step s = .next t) (hr : noReset s) (hb : s.busy = true) :
    OperandsKept s t := by
  cases step_cases h with
  | block u hu _ hblock =>
    have hkept := blockStep_operands hblock
    rcases hu with rfl | rfl
    · exact hkept
    · exact { hkept with }
  | illegal r rest hi ht => subst ht; exact ⟨rfl, rfl, rfl, rfl, rfl, rfl⟩
  | command r rest i hi hd hexec =>
    obtain ⟨m, st, rfl⟩ := exec_refuses_of_busy hexec hb
    exact ⟨rfl, rfl, rfl, rfl, rfl, rfl⟩
  | pulse rest hi ht =>
    obtain ⟨c, irq, heq⟩ := irqPulse_cases s.popInput
    rw [ht, heq]
    exact ⟨rfl, rfl, rfl, rfl, rfl, rfl⟩
  | ended rest hi ht =>
    obtain ⟨c, n, heq⟩ := transferEnd_cases s.popInput
    rw [ht, heq]
    exact ⟨rfl, rfl, rfl, rfl, rfl, rfl⟩
  | reset rest hi ht => exact absurd (by rw [hi]; rfl) hr

/-- Settles O48. -/
theorem requestOperandsAreFixedWhileBusy : Obligations.RequestOperandsAreFixedWhileBusy := by
  intro s t _ h hr hb
  obtain ⟨hord, hcfg, hvalid, hhandle, hudata, hctx⟩ := step_operands h hr hb
  exact ⟨hord, hcfg, hvalid, hhandle, hudata, hctx⟩

/-! ### The opaque configuration (R22) -/

/-- The state with another opaque configuration. -/
def State.withCfg (s : State) (w : Word) : State := { s with cfgOpaque := w }

/-- Two outcomes alike but for the opaque configuration of their next states. -/
inductive CfgRelated : Result → Result → Prop where
  | next (t : State) (w : Word) : CfgRelated (.next t) (.next (t.withCfg w))
  | fault (f : Fault) : CfgRelated (.fault f) (.fault f)

theorem CfgRelated.of_next {a b : Result} {s t : State} (ha : a = .next s) (hb : b = .next t)
    (h : ∃ w, t = s.withCfg w) : CfgRelated a b := by
  obtain ⟨w, rfl⟩ := h
  rw [ha, hb]
  exact .next s w

theorem CfgRelated.of_fault {a b : Result} {f : Fault} (ha : a = .fault f) (hb : b = .fault f) :
    CfgRelated a b := by
  rw [ha, hb]
  exact .fault f

theorem awaitedDone_withCfg (s : State) (w : Word) :
    (s.withCfg w).awaitedDone = s.awaitedDone.withCfg w := by
  by_cases h : s.completedCount + 1 = s.totalChunks
  · rw [awaitedDone_last h, awaitedDone_last (s := s.withCfg w) h]
    rfl
  · rw [awaitedDone_more h, awaitedDone_more (s := s.withCfg w) h]
    rfl

theorem kickDone_withCfg (s : State) (w : Word) : (s.withCfg w).kickDone = s.kickDone.withCfg w := by
  by_cases h : s.fsm = .isr
  · rw [kickDone_isr h, kickDone_isr (s := s.withCfg w) h, awaitedDone_withCfg]
  · rw [kickDone_run h, kickDone_run (s := s.withCfg w) h]
    rfl

theorem afterOk_withCfg (s : State) (w : Word) : (s.withCfg w).afterOk = s.afterOk.withCfg w := by
  by_cases h : s.chunk.rxN = 0
  · rw [afterOk_done h, afterOk_done (s := s.withCfg w) h, kickDone_withCfg]
  · rw [afterOk_reads (Nat.pos_of_ne_zero h),
      afterOk_reads (s := s.withCfg w) (Nat.pos_of_ne_zero h)]
    rfl

theorem afterClear_withCfg (s : State) (p : Option Word) (w : Word) :
    (s.withCfg w).afterClear p = (s.afterClear p).withCfg w := by
  cases p with
  | none => rfl
  | some v =>
    cases hv : statusErr s.config v with
    | true =>
      rw [afterClear_error hv, afterClear_error (s := s.withCfg w) hv]
      rfl
    | false => rw [afterClear_ok hv, afterClear_ok (s := s.withCfg w) hv, afterOk_withCfg]

theorem afterIsrStatus_withCfg (s : State) (v w : Word) :
    (s.withCfg w).afterIsrStatus v = (s.afterIsrStatus v).withCfg w := by
  cases hv : statusErr s.config v with
  | true =>
    rw [afterIsrStatus_error hv, afterIsrStatus_error (s := s.withCfg w) hv]
    rfl
  | false => rw [afterIsrStatus_ok hv, afterIsrStatus_ok (s := s.withCfg w) hv, afterOk_withCfg]

theorem afterStart_withCfg (s : State) (w : Word) :
    (s.withCfg w).afterStart = s.afterStart.withCfg w := by
  by_cases hf : s.fsm = .isr
  · rw [afterStart_isr hf, afterStart_isr (s := s.withCfg w) hf]
    rfl
  · rw [afterStart_of_ne hf, afterStart_of_ne (s := s.withCfg w) hf, apply_ite (State.withCfg · w)]
    rfl

theorem stepReadback_withCfg (s : State) (j : Nat) (ws : List Word) (w : Word) :
    CfgRelated (stepReadback s j ws) (stepReadback (s.withCfg w) j ws) := by
  by_cases hmore : j + 1 < readbackCount s.config s.chunk
  · exact .of_next (stepReadback_more ws hmore) (stepReadback_more (s := s.withCfg w) ws hmore)
      ⟨w, rfl⟩
  · cases hb : unpackSlots s.config (ws ++ [s.readValue (s.readbackReg j)]) s.chunk.rxN
        s.ctx.ord with
    | none =>
      exact .of_fault (stepReadback_fault hmore hb) (stepReadback_fault (s := s.withCfg w) hmore hb)
    | some bytes =>
      exact .of_next (stepReadback_last hmore hb) (stepReadback_last (s := s.withCfg w) hmore hb)
        ⟨w, kickDone_withCfg (s.readBack j bytes) w⟩

theorem stepOpcode_withCfg (s : State) (w : Word) :
    CfgRelated (stepOpcode s) (stepOpcode (s.withCfg w)) := by
  cases h : opcodeWord s.config s.chunk s.ctx.ord with
  | none => exact .of_fault (stepOpcode_of_none h) (stepOpcode_of_none (s := s.withCfg w) h)
  | some v =>
    exact .of_next (stepOpcode_of_some h) (stepOpcode_of_some (s := s.withCfg w) h) ⟨w, rfl⟩

theorem stepData_withCfg (s : State) (j : Fin 8) (w : Word) :
    CfgRelated (stepData s j) (stepData (s.withCfg w) j) := by
  cases h : slotWord s.config s.chunk s.ctx.ord j with
  | none => exact .of_fault (stepData_of_none h) (stepData_of_none (s := s.withCfg w) h)
  | some v => exact .of_next (stepData_of_some h) (stepData_of_some (s := s.withCfg w) h) ⟨w, rfl⟩

/-- A position whose step is one state update that does not read the opaque configuration. -/
theorem procStep_related {s : State} {w : Word} {p : Pos} {f : State → State} (hp : s.pos = p)
    (hstep : ∀ t : State, t.pos = p → procStep t = .next (f t))
    (hf : f (s.withCfg w) = (f s).withCfg w) : CfgRelated (procStep s) (procStep (s.withCfg w)) :=
  .of_next (hstep s hp) (hstep (s.withCfg w) hp) ⟨w, hf⟩

theorem procStep_none {s : State} (h : s.pos = .none) : procStep s = .next s := by
  unfold procStep; rw [h]

theorem procStep_withCfg (s : State) (w : Word) :
    CfgRelated (procStep s) (procStep (s.withCfg w)) := by
  cases hp : s.pos with
  | wOpcode =>
    rw [procStep_wOpcode hp, procStep_wOpcode (s := s.withCfg w) hp]
    exact stepOpcode_withCfg s w
  | wData j =>
    rw [procStep_wData hp, procStep_wData (s := s.withCfg w) hp]
    exact stepData_withCfg s j w
  | readback j ws =>
    rw [procStep_readback hp, procStep_readback (s := s.withCfg w) hp]
    exact stepReadback_withCfg s j ws w
  | sStart =>
    exact procStep_related hp (fun _ => procStep_sStart)
      (afterStart_withCfg (s.busSet .ctrl s.config.start) w)
  | cMode p =>
    exact procStep_related hp (fun _ => procStep_cMode)
      (afterClear_withCfg (s.busClear .ctrl s.chunk.ctrlMask) p w)
  | isrStatus =>
    exact procStep_related hp (fun _ => procStep_isrStatus)
      (afterIsrStatus_withCfg (s.busRead .status) (s.readValue .status) w)
  | none => exact procStep_related hp (fun _ => procStep_none) rfl
  | csAssert => exact procStep_related hp (fun _ => procStep_csAssert) rfl
  | wMblen => exact procStep_related hp (fun _ => procStep_wMblen) rfl
  | sMode => exact procStep_related hp (fun _ => procStep_sMode) rfl
  | poll => exact procStep_related hp (fun _ => procStep_poll) rfl
  | finishCs => exact procStep_related hp (fun _ => procStep_finishCs) rfl
  | finishRespond => exact procStep_related hp (fun _ => procStep_finishRespond) rfl
  | abortCs st => exact procStep_related hp (fun _ => procStep_abortCs) rfl
  | abortRespond st => exact procStep_related hp (fun _ => procStep_abortRespond) rfl
  | acceptRespond => exact procStep_related hp (fun _ => procStep_acceptRespond) rfl
  | isrClear => exact procStep_related hp (fun _ => procStep_isrClear) rfl
  | finishAsyncCs => exact procStep_related hp (fun _ => procStep_finishAsyncCs) rfl
  | finishAsyncEmit => exact procStep_related hp (fun _ => procStep_finishAsyncEmit) rfl
  | abortAsyncCs => exact procStep_related hp (fun _ => procStep_abortAsyncCs) rfl
  | abortAsyncEmit => exact procStep_related hp (fun _ => procStep_abortAsyncEmit) rfl

theorem blockStep_idle {s : State} (h : s.fsm = .idle) : blockStep s = .next s := by
  simp only [blockStep, h]

/-- A waiting block takes the interrupt or keeps its state (R246). -/
theorem blockStep_waitIrq {s : State} (h : s.fsm = .waitIrq) :
    blockStep s = .next (if s.irqTakeable then s.takeInterrupt else s) := by
  simp only [blockStep, h]
  split <;> rfl

theorem blockStep_withCfg (s : State) (w : Word) :
    CfgRelated (blockStep s) (blockStep (s.withCfg w)) := by
  cases hf : s.fsm with
  | idle => exact .of_next (blockStep_idle hf) (blockStep_idle (s := s.withCfg w) hf) ⟨w, rfl⟩
  | waitIrq =>
    refine .of_next (blockStep_waitIrq hf) (blockStep_waitIrq (s := s.withCfg w) hf) ⟨w, ?_⟩
    rw [apply_ite (State.withCfg · w)]
    rfl
  | run =>
    rw [blockStep_run hf, blockStep_run (s := s.withCfg w) hf]
    exact procStep_withCfg s w
  | isr =>
    rw [blockStep_isr hf, blockStep_isr (s := s.withCfg w) hf]
    exact procStep_withCfg s w

/-- Admission reads `busy` alone, so what it answers is related where the acceptances are. -/
theorem admission_withCfg (s : State) (w : Word) (l o c : Bool) (acc : State → State)
    (hacc : ∀ t : State, ∃ w', acc (t.withCfg w) = (acc t).withCfg w') :
    ∃ w', (s.withCfg w).admission l o c acc = (s.admission l o c acc).withCfg w' := by
  cases hchecks : l && o && c with
  | false =>
    exact ⟨w, by rw [admission_invalid _ _ hchecks, admission_invalid _ _ hchecks]; rfl⟩
  | true =>
    obtain ⟨⟨rfl, rfl⟩, rfl⟩ : (l = true ∧ o = true) ∧ c = true := by simpa using hchecks
    cases hb : s.busy with
    | true => exact ⟨w, by rw [admission_busy _ _ hb, admission_busy (s.withCfg w) _ hb]; rfl⟩
    | false =>
      obtain ⟨w', hw'⟩ := hacc (s.withMask true)
      refine ⟨w', ?_⟩
      rw [admission_accepts _ _ hb, admission_accepts (s.withCfg w) _ hb]
      exact congrArg (State.withMask · false) hw'

/-- Only CONFIGURE writes the opaque configuration when it is accepted, and none reads it. -/
theorem acceptOf_withCfg (i : Instr) (s : State) (w : Word) :
    ∃ w', acceptOf i (s.withCfg w) = (acceptOf i s).withCfg w' := by
  cases i with
  | configure ord cfg => exact ⟨cfg, rfl⟩
  | registerCallback cbh udata => exact ⟨w, rfl⟩
  | send tx => exact ⟨w, rfl⟩
  | receive cmd rxLen => exact ⟨w, rfl⟩
  | sendRecv cmd rxLen => exact ⟨w, rfl⟩
  | sendRecvFd tx rxLen => exact ⟨w, rfl⟩
  | sendAsync tx => exact ⟨w, rfl⟩
  | sendRecvAsync cmd rxLen => exact ⟨w, rfl⟩

theorem takeRecord_withCfg (r : Record) (s : State) (w : Word) :
    CfgRelated (takeRecord r s) (takeRecord r (s.withCfg w)) := by
  unfold takeRecord
  cases hd : decode r with
  | ok i =>
    obtain ⟨o, hwf, rfl, -, hfields⟩ := decode_ok hd
    obtain ⟨hi, -⟩ := operandsOf_wf hwf hfields
    exact .of_next (exec_eq_admission hi s) (exec_eq_admission hi (s.withCfg w))
      (admission_withCfg s w _ _ _ _ fun t => acceptOf_withCfg _ t w)
  | error e =>
    cases e with
    | illFormedRecord => exact .fault _
    | reservedBits => exact .next _ w
    | reservedOp => exact .next _ w
    | badCmdLen => exact .next _ w
    | badOrd => exact .next _ w

theorem irqPulse_withCfg (s : State) (w : Word) : (s.withCfg w).irqPulse = s.irqPulse.withCfg w := by
  cases hc : s.controller with
  | oracle =>
    rw [irqPulse_oracle hc, irqPulse_oracle (s := s.withCfg w) hc]
    rfl
  | reference c =>
    cases hr : c.irqReady with
    | true =>
      rw [irqPulse_ready hc hr, irqPulse_ready (s := s.withCfg w) hc hr]
      rfl
    | false => rw [irqPulse_not_ready hc hr, irqPulse_not_ready (s := s.withCfg w) hc hr]

theorem transferEnd_withCfg (s : State) (w : Word) :
    (s.withCfg w).transferEnd = s.transferEnd.withCfg w := by
  cases hc : s.controller with
  | oracle => rw [transferEnd_oracle hc, transferEnd_oracle (s := s.withCfg w) hc]
  | reference c =>
    cases hk : c.kick with
    | none => rw [transferEnd_idle hc hk, transferEnd_idle (s := s.withCfg w) hc hk]
    | some k =>
      rw [transferEnd_kick hc hk, transferEnd_kick (s := s.withCfg w) hc hk]
      rfl

/-- Two states alike but for the opaque configuration take alike steps. -/
theorem step_withCfg (s : State) (w : Word) : CfgRelated (step s) (step (s.withCfg w)) := by
  cases hi : s.inputs with
  | nil =>
    rw [step_of_no_input hi, step_of_no_input (s := s.withCfg w) hi]
    exact blockStep_withCfg s w
  | cons input rest =>
    cases input with
    | tick =>
      rw [step_of_tick hi, step_of_tick (s := s.withCfg w) hi]
      exact blockStep_withCfg { s with inputs := rest } w
    | command r =>
      rw [step_of_command hi, step_of_command (s := s.withCfg w) hi]
      exact takeRecord_withCfg r { s with inputs := rest } w
    | irqPulse =>
      exact .of_next (step_of_irqPulse hi) (step_of_irqPulse (s := s.withCfg w) hi)
        ⟨w, irqPulse_withCfg { s with inputs := rest } w⟩
    | transferEnd =>
      exact .of_next (step_of_transferEnd hi) (step_of_transferEnd (s := s.withCfg w) hi)
        ⟨w, transferEnd_withCfg { s with inputs := rest } w⟩
    | reset => exact .of_next (step_of_reset hi) (step_of_reset (s := s.withCfg w) hi) ⟨0, rfl⟩

/-- Settles O49: both steps have one outcome but for the opaque configuration. -/
theorem opaqueConfigurationIsNeverRead : Obligations.OpaqueConfigurationIsNeverRead := by
  intro s w
  have hrel : CfgRelated (step s) (step { s with cfgOpaque := w }) := step_withCfg s w
  generalize step s = a at hrel ⊢
  generalize step { s with cfgOpaque := w } = b at hrel ⊢
  cases hrel with
  | next u w' =>
    refine ⟨fun t ht => ?_, fun f => by simp⟩
    cases ht
    exact ⟨_, rfl, rfl⟩
  | fault f => exact ⟨fun t ht => (by cases ht), fun g => Iff.rfl⟩

/-! ### Commands and the interrupt (R280, R281) -/

/-- Settles O38: the interrupt can be taken. -/
theorem interruptEntry : Obligations.InterruptEntry := by
  intro s hi hf hpending hmask
  have htake : s.irqTakeable = true := by simp [State.irqTakeable, hf, hpending, hmask]
  rw [step_of_no_input hi, blockStep_waitIrq hf, if_pos htake]
  rfl

/-- What a busy block answers a command (R150, R169). -/
def busyAnswer (i : Instr) (cbValid : Bool) : Status :=
  if admissibleOperands i && callbackCondition i cbValid then .busy else .invalidParameter

/-- A command at a busy block is refused, with a status that depends on the operands and the callback. -/
theorem exec_of_busy {i : Instr} {s : State} (hwf : i.wf = true) (hb : s.busy = true)
    (hm : s.irqMask = false) : exec i s = .next (s.refuse (busyAnswer i s.cbValid)) := by
  cases hchecks : admissibleOperands i && callbackCondition i s.cbValid with
  | true =>
    obtain ⟨ha, hc⟩ := Bool.and_eq_true_iff.mp hchecks
    rw [busyAnswer, if_pos hchecks, busyBlockRefuses i s hwf ha hc hb hm]
    rfl
  | false =>
    rw [busyAnswer, hchecks]
    exact exec_invalid hwf (Bool.and_eq_false_iff.mp hchecks)

/-- Settles O44: the refusal reads nothing the interrupt's entry writes, and emits the only event. -/
theorem commandAndInterruptCommute : Obligations.CommandAndInterruptCommute := by
  intro s r rest i hinv hd hf hpending
  have hb := busy_of_not_idle hinv (by rw [hf]; decide)
  obtain ⟨hwf, -⟩ := decodedWordIsReencoded r i hd
  have htake : s.irqTakeable = true := by simp [State.irqTakeable, hf, hpending, hinv.mask]
  have hcommand : ∀ t : State, t.busy = true → t.irqMask = false → ∀ l,
      t.inputs = .command r :: l →
      step t = .next (({ t with inputs := l } : State).refuse (busyAnswer i t.cbValid)) := by
    intro t htb htm l hl
    rw [stepRunsDecodedCommand t r l i hl hd]
    exact exec_of_busy (s := { t with inputs := l }) hwf htb htm
  have htick : ∀ t : State, t.fsm = .waitIrq → t.irqTakeable = true → ∀ l,
      t.inputs = .tick :: l → step t = .next ({ t with inputs := l } : State).takeInterrupt := by
    intro t htf htt l hl
    rw [step_of_tick hl, blockStep_waitIrq (s := { t with inputs := l }) htf]
    exact congrArg _ (if_pos htt)
  have hfirst : runSteps 2 { s with inputs := .command r :: .tick :: rest } =
      .next (({ s with inputs := rest } : State).refuse (busyAnswer i s.cbValid)).takeInterrupt :=
    (runSteps_cons (hcommand { s with inputs := .command r :: .tick :: rest } hb hinv.mask _ rfl)
      1).trans (runSteps_one (htick (State.refuse { s with inputs := .tick :: rest } _) hf htake _ rfl))
  have hsecond : runSteps 2 { s with inputs := .tick :: .command r :: rest } =
      .next (({ s with inputs := rest } : State).refuse (busyAnswer i s.cbValid)).takeInterrupt :=
    (runSteps_cons (htick { s with inputs := .tick :: .command r :: rest } hf htake _ rfl)
      1).trans (runSteps_one
        (hcommand (State.takeInterrupt { s with inputs := .command r :: rest }) hb hinv.mask _ rfl))
  exact ⟨hfirst.trans hsecond.symm, _, hfirst, rfl, rfl⟩

/-- Settles O42: the waiting block's step keeps the state, and so does every number of them. -/
theorem lostInterruptIsStuck : Obligations.LostInterruptIsStuck := by
  intro s n ⟨hf, hpending, hi⟩
  have hstep : step s = .next s := by
    rw [step_of_no_input hi, blockStep_waitIrq hf]
    simp [State.irqTakeable, hpending]
  induction n with
  | zero => rfl
  | succ n ih => rw [runSteps_cons hstep, ih]

/-! ### Reset, parameters and instances -/

/-- Settles O58. -/
theorem resetTakesTheStatedValues : Obligations.ResetTakesTheStatedValues := by
  refine ⟨by simp [State.reset], fun s rest hi => ⟨_, step_of_reset hi, ?_⟩⟩
  simp [State.hardReset, State.reset]

/-- Settles O60: the list of instances is updated at one place. -/
theorem instancesAreIndependent : Obligations.InstancesAreIndependent := by
  intro k ss ts h
  unfold stepInstance at h
  cases hk : ss[k]? with
  | none =>
    simp only [hk] at h
    cases h
    exact ⟨rfl, fun _ _ => rfl, fun u hu => (by cases hu)⟩
  | some s =>
    simp only [hk] at h
    cases hs : step s with
    | fault f => simp [hs] at h
    | refused r => simp [hs] at h
    | next t =>
      simp only [hs] at h
      cases h
      obtain ⟨hlt, -⟩ := List.getElem?_eq_some_iff.mp hk
      refine ⟨by simp, fun j hj => by simp [Ne.symm hj], fun u hu => ?_⟩
      cases hu
      exact ⟨t, hs, by simp [hlt]⟩

/-- The offsets of the registers of R35 are aligned and pairwise distinct (R64). -/
theorem offsets_ok (c : Config) : c.toParams.offsetsOk = true := by
  have h := c.valid
  simp only [Config.Params.valid, Bool.and_eq_true] at h
  exact h.1.1.2

/-- Every register is one of R35's. -/
theorem mem_allRegs (r : Reg) : r ∈ Config.allRegs := by
  cases r with
  | data j => revert j; decide
  | ctrl => decide
  | opcode => decide
  | mblen => decide
  | status => decide

/-- Settles O59: the configuration's own check, for each register. -/
theorem registerOffsetsAreDistinct : Obligations.RegisterOffsetsAreDistinct := by
  intro c
  have hok := offsets_ok c
  simp only [Config.Params.offsetsOk, Bool.and_eq_true, decide_eq_true_eq, List.all_eq_true,
    List.mem_map, forall_exists_index, and_imp, forall_apply_eq_imp_iff₂, beq_iff_eq] at hok
  obtain ⟨haligned, hdistinct⟩ := hok
  refine ⟨fun r => ?_, fun r q h => ?_, fun j => ?_⟩
  · have hlow := congrArg BitVec.toNat (haligned r (mem_allRegs r))
    simpa [BitVec.toNat_and, Nat.and_two_pow_sub_one_eq_mod _ 2] using hlow
  · exact List.inj_on_of_nodup_map hdistinct (mem_allRegs r) (mem_allRegs q) h
  · simp [Config.Params.offset, BitVec.ofNat_mul]

end Sys2Proof.Machine

/-! The invariant (10_state.md, 41_engine_common.md, 44_async_completion.md): each position's step keeps it,
so every step does; and under it the codec's calls lie in their domain, so the only stop is an ill-formed
record. -/

namespace Sys2Proof.Machine

/-! ### Positions within a kick -/

/-- The positions between the chip-select assertion and the request's end or the next wait. -/
def Pos.inKick : Pos → Bool
  | .wOpcode | .wData _ | .wMblen | .sMode | .sStart | .poll | .cMode _ | .readback _ _ | .abortCs _
  | .acceptRespond | .isrClear | .isrStatus | .abortAsyncCs => true
  | .none | .csAssert | .finishCs | .finishRespond | .abortRespond _ | .finishAsyncCs
  | .finishAsyncEmit | .abortAsyncEmit => false

/-- The counters while a chunk is programmed, awaited or read back (R25, R27, R241). -/
def State.chunkCounters (s : State) : Prop :=
  s.ci.toNat < s.totalChunks.toNat ∧ s.completedCount = if s.ctx.reqOp.isAsync then s.ci else 0

/-- Within a kick chip-select is asserted (R42). -/
theorem csFor_inKick {f : Fsm} {p : Pos} (hf : f = .run ∨ f = .isr) (hp : p.inKick = true) :
    csFor f p = .asserted := by
  revert hp
  rcases hf with rfl | rfl <;> cases p <;> simp [Pos.inKick, csFor]

theorem countersAt_inKick {s : State} {p : Pos} (hp : p.inKick = true) :
    countersAt s p ↔ s.chunkCounters := by
  revert hp
  cases p <;> simp [Pos.inKick, countersAt, State.chunkCounters]

/-- A position of the interrupt procedure belongs to an async request (R240). -/
theorem State.Inv.async_of_isr {s : State} (h : s.Inv) (hf : s.fsm = .isr) :
    s.ctx.reqOp.isAsync = true := by
  have hfits := h.fits
  rw [hf] at hfits
  cases hp : s.pos <;> simp_all [posFits]

/-- What a running block at a position within a kick may rely on. -/
structure InKick (s : State) : Prop where
  inv : s.Inv
  running : s.fsm = .run ∨ s.fsm = .isr
  inKick : s.pos.inKick = true

theorem InKick.busy {s : State} (h : InKick s) : s.busy = true :=
  busy_of_not_idle h.inv (by rcases h.running with hf | hf <;> rw [hf] <;> decide)

theorem InKick.counters {s : State} (h : InKick s) : s.chunkCounters :=
  (countersAt_inKick h.inKick).mp (h.inv.request h.busy).counters

theorem InKick.asserted {s : State} (h : InKick s) : s.csState = .asserted :=
  h.inv.cs.trans (csFor_inKick h.running h.inKick)

/-- What a move within a kick keeps. -/
structure KickFrame (s t : State) : Prop where
  busy : t.busy = s.busy
  irqMask : t.irqMask = s.irqMask
  fsm : t.fsm = s.fsm
  ctx : t.ctx = s.ctx
  config : t.config = s.config
  ci : t.ci = s.ci
  totalChunks : t.totalChunks = s.totalChunks
  completedCount : t.completedCount = s.completedCount
  cbValid : t.cbValid = s.cbValid
  csState : t.csState = s.csState

theorem chunkCounters_congr {s t : State} (h : KickFrame s t) :
    t.chunkCounters ↔ s.chunkCounters := by
  unfold State.chunkCounters
  rw [h.ci, h.totalChunks, h.completedCount, h.ctx]

/-- A move within a kick keeps the invariant where the new position fits. -/
theorem InKick.move {s t : State} (h : InKick s) (f : KickFrame s t) {p : Pos} (hp : t.pos = p)
    (hk : p.inKick = true) (hfit : posFits s.fsm s.ctx.reqOp.isAsync p = true)
    (hpoll : t.pollCnt.toNat ≤ s.config.pollBudget) (hl : posLocals t p) : t.Inv :=
  inv_move h.inv p hp f.busy f.irqMask f.fsm f.ctx f.config f.ci f.totalChunks f.completedCount
    f.cbValid hfit (by rw [f.csState, h.asserted, csFor_inKick h.running hk]) hpoll hl
    (fun _ => (countersAt_inKick hk).mpr ((chunkCounters_congr f).mpr h.counters))
    (by rintro rfl; cases hk)

/-! ### The ends of a kick -/

/-- An idle block with chip-select deasserted meets the invariant. -/
theorem inv_of_idle {t : State} (hb : t.busy = false) (hf : t.fsm = .idle) (hp : t.pos = .none)
    (hmask : t.irqMask = false) (hcs : t.csState = .deasserted)
    (hpoll : t.pollCnt.toNat ≤ t.config.pollBudget) (hci : t.ci.toNat ≤ t.totalChunks.toNat)
    (hcount : t.completedCount = 0) : t.Inv where
  busy_iff := by simp [hb, hf]
  mask := hmask
  fits := by simp [hf, hp, posFits]
  cs := by rw [hcs, hf, hp]; rfl
  poll_le := hpoll
  ci_le := hci
  locals := by rw [hp]; trivial
  idle_count := fun _ => hcount
  request := fun hbusy => by rw [hb] at hbusy; cases hbusy

/-- The return to waiting keeps the invariant of an async request (R231, R240). -/
theorem InKick.toWaitIrq {s t : State} (h : InKick s) (ha : s.ctx.reqOp.isAsync = true)
    (ht : KickFrame s.toWaitIrq t) (hp : t.pos = .none) (hpoll : t.pollCnt = s.pollCnt) : t.Inv := by
  have hf : t.fsm = .waitIrq := ht.fsm
  have hb : t.busy = true := ht.busy.trans h.busy
  have hctx : t.ctx = s.ctx := ht.ctx
  have hcfg : t.config = s.config := ht.config
  have hci : t.ci = s.ci := ht.ci
  have htotal : t.totalChunks = s.totalChunks := ht.totalChunks
  have hreq := h.inv.request h.busy
  constructor
  · simp [hb, hf]
  · exact ht.irqMask.trans h.inv.mask
  · simp [hf, hp, hctx, ha, posFits]
  · rw [hf, hp]
    exact ht.csState.trans h.asserted
  · rw [hpoll, hcfg]
    exact h.inv.poll_le
  · rw [hci, htotal]
    exact h.inv.ci_le
  · rw [hp]
    trivial
  · intro hno
    rw [hb] at hno
    cases hno
  · intro _
    constructor
    · rw [hctx]; exact hreq.context
    · rw [htotal, hctx, hcfg]; exact hreq.total
    · rw [hp]
      exact (chunkCounters_congr ht).mpr h.counters
    · intro hno
      rw [hp] at hno
      cases hno
    · rw [hctx, show t.cbValid = s.cbValid from ht.cbValid]
      exact hreq.callback

/-- Counting a chunk and moving on keeps the invariant where the counters fit the new position. -/
theorem InKick.advance {s : State} (h : InKick s) {ci cnt : Word} {p : Pos}
    (hp : p = .wOpcode ∨ p = .finishCs ∨ p = .finishAsyncCs)
    (hfit : posFits s.fsm s.ctx.reqOp.isAsync p = true) (hci : ci.toNat ≤ s.totalChunks.toNat)
    (hcounters : countersAt { s with ci := ci, completedCount := cnt, pos := p } p) :
    State.Inv { s with ci := ci, completedCount := cnt, pos := p } := by
  have hreq := h.inv.request h.busy
  constructor
  · exact h.inv.busy_iff
  · exact h.inv.mask
  · exact hfit
  · rcases h.running with hf | hf <;> rcases hp with rfl | rfl | rfl <;>
      simp [hf, csFor, h.asserted]
  · exact h.inv.poll_le
  · exact hci
  · rcases hp with rfl | rfl | rfl <;> trivial
  · intro hno
    rw [h.busy] at hno
    cases hno
  · intro _
    refine ⟨hreq.context, hreq.total, hcounters, fun hcs => ?_, hreq.callback⟩
    rcases hp with rfl | rfl | rfl <;> cases hcs

/-- The end of a good polled kick: the next chunk is programmed, or the request finishes with every
chunk counted (R165). -/
theorem InKick.polledDone {s : State} (h : InKick s) (hf : s.fsm = .run)
    (hsync : s.ctx.reqOp.isAsync = false) : s.polledDone.Inv := by
  obtain ⟨hlt, hcount⟩ := h.counters
  rw [hsync, if_neg (by decide)] at hcount
  have hsucc := counter_succ_toNat hlt
  by_cases hmore : (s.ci + 1).toNat < s.totalChunks.toNat
  · rw [State.polledDone, if_pos hmore]
    exact h.advance (.inl rfl) (by simp [hf, posFits]) hmore.le
      ⟨hmore, by simp [hsync, hcount]⟩
  · rw [State.polledDone, if_neg hmore]
    exact h.advance (.inr (.inl rfl)) (by simp [hf, hsync, posFits]) (by omega)
      ⟨BitVec.eq_of_toNat_eq (show (s.ci + 1).toNat = s.totalChunks.toNat by omega), hcount⟩

/-- The end of a good awaited kick: the next chunk is programmed, or the request finishes with every
chunk completed (R240). -/
theorem InKick.awaitedDone {s : State} (h : InKick s) (hf : s.fsm = .isr) : s.awaitedDone.Inv := by
  have ha := h.inv.async_of_isr hf
  obtain ⟨hlt, hcount⟩ := h.counters
  rw [ha, if_pos rfl] at hcount
  have hsucc := counter_succ_toNat hlt
  by_cases hlast : s.completedCount + 1 = s.totalChunks
  · have htotal := congrArg BitVec.toNat hlast
    rw [hcount] at htotal
    rw [awaitedDone_last hlast]
    exact h.advance (.inr (.inr rfl)) (by simp [hf, ha, posFits]) hlt.le
      ⟨hsucc.symm.trans htotal, hlast⟩
  · have hmore : (s.ci + 1).toNat < s.totalChunks.toNat := by
      have hne : (s.ci + 1).toNat ≠ s.totalChunks.toNat := fun heq =>
        hlast (hcount ▸ BitVec.eq_of_toNat_eq heq)
      omega
    rw [awaitedDone_more hlast]
    exact h.advance (.inl rfl) (by simp [hf, ha, posFits]) hmore.le
      ⟨hmore, by simp [ha, hcount]⟩

/-- The end of a good kick keeps the invariant on either path. -/
theorem InKick.kickDone {s : State} (h : InKick s)
    (hpath : s.fsm = .run → s.ctx.reqOp.isAsync = false) : s.kickDone.Inv := by
  by_cases hf : s.fsm = .isr
  · rw [kickDone_isr hf]
    exact h.awaitedDone hf
  · rw [kickDone_run hf]
    have hrun := h.running.resolve_right hf
    exact h.polledDone hrun (hpath hrun)

/-- A good kick goes on to its readback or its end. -/
theorem InKick.afterOk {s : State} (h : InKick s)
    (hpath : s.fsm = .run → s.ctx.reqOp.isAsync = false) : s.afterOk.Inv := by
  by_cases hrx : s.chunk.rxN = 0
  · rw [afterOk_done hrx]
    exact h.kickDone hpath
  · rw [afterOk_reads (Nat.pos_of_ne_zero hrx)]
    refine h.move ⟨rfl, rfl, rfl, rfl, rfl, rfl, rfl, rfl, rfl, rfl⟩ rfl rfl ?_ h.inv.poll_le
      ⟨rfl, ?_⟩
    · rcases h.running with hf | hf
      · simp [hf, hpath hf, posFits]
      · simp [hf, h.inv.async_of_isr hf, posFits]
    · have hcount := readbackCount_eq s.config s.chunk
      show 0 < readbackCount s.config s.chunk
      omega

/-! ### The steps within a kick -/

/-- A write of the register bus keeps the invariant where the position it moves to fits. -/
theorem InKick.program {s t : State} (h : InKick s) (f : KickFrame s t) {p : Pos} (hp : t.pos = p)
    (hk : p.inKick = true) (hfit : posFits s.fsm s.ctx.reqOp.isAsync p = true)
    (hpoll : t.pollCnt = s.pollCnt) (hl : posLocals t p) : t.Inv :=
  h.move f hp hk hfit (by rw [hpoll]; exact h.inv.poll_le) hl

/-- The positions of `program` fit both paths. -/
theorem InKick.fits_program {s : State} (h : InKick s) {p : Pos}
    (hrun : posFits .run s.ctx.reqOp.isAsync p = true)
    (hisr : posFits .isr true p = true) : posFits s.fsm s.ctx.reqOp.isAsync p = true := by
  rcases h.running with hf | hf
  · rw [hf]; exact hrun
  · rw [hf, h.inv.async_of_isr hf]; exact hisr

/-- The next position of the slot writes is in range. -/
theorem InKick.toSlot {s t : State} (h : InKick s) (f : KickFrame s t) (j : Nat)
    (hp : t.pos = slotPos s.chunk j) (hpoll : t.pollCnt = s.pollCnt) : t.Inv := by
  have hchunk : t.chunk = s.chunk := chunk_congr f.config f.ctx f.ci
  have hle := (chunk_inDomain h.inv h.busy).stage_le
  by_cases hj : j < s.chunk.stageM
  · rw [slotPos, if_pos hj] at hp
    refine h.program f hp rfl (h.fits_program rfl rfl) hpoll ?_
    show (Fin.ofNat 8 j).val < t.chunk.stageM
    rw [hchunk, show (Fin.ofNat 8 j).val = j from Nat.mod_eq_of_lt (by omega)]
    exact hj
  · rw [slotPos, if_neg hj] at hp
    exact h.program f hp rfl (h.fits_program rfl rfl) hpoll trivial

/-- A polling position is reached by polling requests alone. -/
theorem State.Inv.sync_of_run {s : State} (h : s.Inv) (hp : posFits .run true s.pos = false)
    (hf : s.fsm = .run) : s.ctx.reqOp.isAsync = false := by
  have hfits := h.fits
  rw [hf] at hfits
  cases ha : s.ctx.reqOp.isAsync with
  | false => rfl
  | true => rw [ha, hp] at hfits; cases hfits

/-- A position outside the interrupt procedure is reached in RUN (R29). -/
theorem State.Inv.run_of_fits {s : State} (h : s.Inv) (hrun : s.fsm = .run ∨ s.fsm = .isr)
    (hp : posFits .isr true s.pos = false) : s.fsm = .run := by
  refine hrun.resolve_right fun hf => ?_
  have hfits := h.fits
  rw [hf, h.async_of_isr hf, hp] at hfits
  cases hfits

/-- A position of the interrupt procedure alone is reached in ISR (R29). -/
theorem State.Inv.isr_of_fits {s : State} (h : s.Inv) (hrun : s.fsm = .run ∨ s.fsm = .isr)
    (hp : ∀ b, posFits .run b s.pos = false) : s.fsm = .isr := by
  refine hrun.resolve_left fun hf => ?_
  have hfits := h.fits
  rw [hf, hp] at hfits
  cases hfits

/-- The kick keeps the invariant: it waits, responds or polls (R161, R231, R240). -/
theorem InKick.start {s : State} (h : InKick s) : (stepStart s).Inv := by
  have hframe : KickFrame s (s.busSet .ctrl s.config.start) :=
    ⟨rfl, rfl, rfl, rfl, rfl, rfl, rfl, rfl, rfl, rfl⟩
  by_cases hf : s.fsm = .isr
  · rw [stepStart, afterStart_isr (s := s.busSet .ctrl s.config.start) hf]
    exact h.toWaitIrq (h.inv.async_of_isr hf) { hframe with fsm := rfl } rfl rfl
  · have hrun := h.running.resolve_right hf
    cases ha : s.ctx.reqOp.isAsync with
    | true =>
      rw [stepStart, afterStart_async (s := s.busSet .ctrl s.config.start) hrun ha]
      exact h.program { hframe with } rfl rfl (by simp [hrun, ha, posFits]) rfl trivial
    | false =>
      have hbudget := (pollBudget_bounds s.config).1
      rw [stepStart, afterStart_polling (s := s.busSet .ctrl s.config.start) hrun ha]
      refine h.move { hframe with } rfl rfl (by simp [hrun, ha, posFits]) (Nat.zero_le _) ?_
      show 0 < s.config.pollBudget
      omega

/-- A status read of `poll` keeps the invariant: the counter stays within the budget (R28, R161). -/
theorem InKick.poll {s : State} (h : InKick s) (hp : s.pos = .poll) : (stepPoll s).Inv := by
  have hrun : s.fsm = .run := h.inv.run_of_fits h.running (by rw [hp]; rfl)
  have hsync := h.inv.sync_of_run (by rw [hp]; rfl) hrun
  have hlt : s.pollCnt.toNat < s.config.pollBudget := by
    have hl := h.inv.locals
    rwa [hp] at hl
  have hsucc : (stepPoll s).pollCnt.toNat = s.pollCnt.toNat + 1 := pollCnt_succ hlt
  have hframe : KickFrame s (stepPoll s) := ⟨rfl, rfl, rfl, rfl, rfl, rfl, rfl, rfl, rfl, rfl⟩
  have hmove : ∀ p, (stepPoll s).pos = p → p.inKick = true → posFits .run false p = true →
      posLocals (stepPoll s) p → (stepPoll s).Inv := fun p hpos hk hfit hl =>
    h.move hframe hpos hk (by rw [hrun, hsync]; exact hfit) (by omega) hl
  cases hv : statusBusy s.config (s.readValue .status) with
  | false => exact hmove _ (stepPoll_pos_of_clear hv) rfl rfl trivial
  | true =>
    have hpos := stepPoll_pos_of_busy hlt hv
    split at hpos
    · exact hmove _ hpos rfl rfl trivial
    · refine hmove _ hpos rfl rfl ?_
      show (stepPoll s).pollCnt.toNat < s.config.pollBudget
      omega

/-- The classification of a polled kick keeps the invariant (R163, R164). -/
theorem InKick.afterClear {s : State} (h : InKick s) (hrun : s.fsm = .run)
    (hsync : s.ctx.reqOp.isAsync = false) (p : Option Word) : (s.afterClear p).Inv := by
  have hframe : ∀ q, KickFrame s { s with pos := q } := fun q =>
    ⟨rfl, rfl, rfl, rfl, rfl, rfl, rfl, rfl, rfl, rfl⟩
  cases p with
  | none =>
    rw [afterClear_timeout]
    exact h.program (hframe _) rfl rfl (by simp [hrun, hsync, posFits]) rfl (.inl rfl)
  | some v =>
    cases hv : statusErr s.config v with
    | true =>
      rw [afterClear_error hv]
      exact h.program (hframe _) rfl rfl (by simp [hrun, hsync, posFits]) rfl (.inr rfl)
    | false =>
      rw [afterClear_ok hv]
      exact h.afterOk fun _ => hsync

/-- The classification of an awaited kick keeps the invariant (R240). -/
theorem InKick.afterIsrStatus {s : State} (h : InKick s) (hf : s.fsm = .isr) (v : Word) :
    (s.afterIsrStatus v).Inv := by
  have ha := h.inv.async_of_isr hf
  cases hv : statusErr s.config v with
  | true =>
    rw [afterIsrStatus_error hv]
    exact h.program ⟨rfl, rfl, rfl, rfl, rfl, rfl, rfl, rfl, rfl, rfl⟩ rfl rfl
      (by simp [hf, ha, posFits]) rfl trivial
  | false =>
    rw [afterIsrStatus_ok hv]
    exact h.afterOk fun hrun => by rw [hf] at hrun; cases hrun

/-- An operation of the register bus without a move keeps a position within a kick. -/
theorem InKick.bus {s t : State} (h : InKick s) (f : KickFrame s t) (hp : t.pos = s.pos)
    (hpoll : t.pollCnt = s.pollCnt) : InKick t where
  inv := inv_congr h.inv f.busy f.irqMask f.fsm f.ctx hp f.csState hpoll f.config f.ci f.totalChunks
    f.completedCount f.cbValid
  running := by rw [f.fsm]; exact h.running
  inKick := by rw [hp]; exact h.inKick

/-- The bytes a chunk's readback writes lie in the receive buffer (R160). -/
theorem InKick.readback_fits {s : State} (h : InKick s) {bytes : List Byte}
    (hlen : bytes.length = s.chunk.rxN) (hpos : 0 < s.chunk.rxN) :
    (fillRx s.ctx.rxBuf s.chunk.rxDst bytes).length = s.ctx.rxLen.toNat := by
  have hreq := h.inv.request h.busy
  have hbuf := hreq.context.rx_len
  have hin := chunkOf_rx_in_buffer s.config hreq.context.conditions
    (by rw [← hreq.total]; exact h.counters.1) hpos
  rw [fillRx_length, hbuf]
  rw [hbuf, hlen]
  exact hin

/-- The last slot read of a readback keeps the request's invariant: the buffer keeps its length. -/
theorem InKick.readBack {s : State} (h : InKick s) {bytes : List Byte} {j : Nat}
    (hlen : bytes.length = s.chunk.rxN) (hpos : 0 < s.chunk.rxN) : InKick (s.readBack j bytes) := by
  have hreq := h.inv.request h.busy
  have hbuf := h.readback_fits hlen hpos
  refine ⟨?_, h.running, h.inKick⟩
  constructor
  · exact h.inv.busy_iff
  · exact h.inv.mask
  · exact h.inv.fits
  · exact h.inv.cs
  · exact h.inv.poll_le
  · exact h.inv.ci_le
  · exact h.inv.locals
  · exact h.inv.idle_count
  · intro _
    refine ⟨?_, hreq.total, hreq.counters, hreq.first, hreq.callback⟩
    exact ⟨hreq.context.cmd_len, hreq.context.cmd_le, hreq.context.tx_len, hbuf,
      hreq.context.conditions⟩

/-- A slot read of `readback` answers and keeps the invariant (R160). -/
theorem InKick.readback {s : State} (h : InKick s) {j : Nat} {w : List Word}
    (hp : s.pos = .readback j w) : ∃ t, stepReadback s j w = .next t ∧ t.Inv := by
  obtain ⟨hw, hj⟩ : w.length = j ∧ j < readbackCount s.config s.chunk := by
    have hl := h.inv.locals
    rwa [hp] at hl
  have hpath := h.inv.sync_of_run (by rw [hp]; rfl)
  by_cases hmore : j + 1 < readbackCount s.config s.chunk
  · refine ⟨_, stepReadback_more w hmore, ?_⟩
    refine h.program ⟨rfl, rfl, rfl, rfl, rfl, rfl, rfl, rfl, rfl, rfl⟩ rfl rfl ?_ rfl
      ⟨by simp [hw], hmore⟩
    rcases h.running with hf | hf
    · simp [hf, hpath hf, posFits]
    · simp [hf, h.inv.async_of_isr hf, posFits]
  · have hcount := readbackCount_eq s.config s.chunk
    obtain ⟨bytes, hb, hlen⟩ := readback_unpacks (chunk_inDomain h.inv h.busy)
      (ws := w ++ [s.readValue (s.readbackReg j)]) (by simp; omega) s.ctx.ord
    exact ⟨_, stepReadback_last hmore hb, (h.readBack hlen (by omega)).kickDone hpath⟩

/-! ### The steps around a kick -/

/-- A step that moves chip-select keeps the invariant where the counters fit the new position. -/
theorem inv_setCs {s : State} (h : s.Inv) {x : CsState} {p : Pos}
    (hfit : posFits s.fsm s.ctx.reqOp.isAsync p = true) (hcs : x = csFor s.fsm p)
    (hl : posLocals { s.setCs x with pos := p } p)
    (hc : s.busy = true → countersAt { s.setCs x with pos := p } p) (hne : p ≠ .csAssert) :
    State.Inv { s.setCs x with pos := p } :=
  inv_move h p rfl rfl rfl rfl rfl rfl rfl rfl rfl rfl hfit hcs h.poll_le hl hc hne

/-- The release of the controller keeps the invariant (R167, R168, R242, R244). -/
theorem endPoll_inv {s : State} (h : s.Inv) (hcs : s.csState = .deasserted)
    (hcount : s.completedCount = 0) (st : Status) : (s.endPoll st).Inv :=
  inv_of_idle rfl rfl rfl h.mask hcs h.poll_le h.ci_le hcount

theorem endAsync_inv {s : State} (h : s.Inv) (hcs : s.csState = .deasserted) (code : EventCode) :
    (s.endAsync code).Inv :=
  inv_of_idle rfl rfl rfl h.mask hcs h.poll_le h.ci_le rfl

/-- Every position of a running procedure has a step, and it keeps the invariant. -/
theorem procStep_inv {s : State} (h : s.Inv) (hrun : s.fsm = .run ∨ s.fsm = .isr) :
    ∃ t, procStep s = .next t ∧ t.Inv := by
  have hb : s.busy = true :=
    busy_of_not_idle h (by rcases hrun with hf | hf <;> rw [hf] <;> decide)
  have hcounters := (h.request hb).counters
  have hlocals := h.locals
  have hcs := h.cs
  have hkick : s.pos.inKick = true → InKick s := InKick.mk h hrun
  have hisr : (∀ b, posFits .run b s.pos = false) → s.fsm = .isr := h.isr_of_fits hrun
  have hpoll : posFits .isr true s.pos = false → s.fsm = .run := h.run_of_fits hrun
  cases hp : s.pos <;> rw [hp] at hcounters hlocals hcs hkick hisr hpoll
  case none =>
    have hfits := h.fits
    rw [hp] at hfits
    rcases hrun with hf | hf <;> rw [hf] at hfits <;> cases hfits
  case csAssert =>
    have hf := hpoll rfl
    exact ⟨_, procStep_csAssert hp, inv_setCs h (by simp [hf, posFits]) (by rw [hf]; rfl) trivial
      (fun _ => hcounters) (by decide)⟩
  case wOpcode =>
    have hk := hkick rfl
    exact ⟨_, (procStep_wOpcode hp).trans (stepOpcode_next (chunk_inDomain h hb).op_le),
      hk.toSlot ⟨rfl, rfl, rfl, rfl, rfl, rfl, rfl, rfl, rfl, rfl⟩ 0 rfl rfl⟩
  case wData j =>
    have hk := hkick rfl
    obtain ⟨w, hw⟩ := slotWord_some (chunk_inDomain h hb) hlocals s.ctx.ord
    have hstep := stepData_next j.isLt hw
    rw [Fin.ofNat_val_eq_self] at hstep
    exact ⟨_, (procStep_wData hp).trans hstep,
      hk.toSlot ⟨rfl, rfl, rfl, rfl, rfl, rfl, rfl, rfl, rfl, rfl⟩ (j + 1) rfl rfl⟩
  case wMblen =>
    have hk := hkick rfl
    exact ⟨_, procStep_wMblen hp, hk.program ⟨rfl, rfl, rfl, rfl, rfl, rfl, rfl, rfl, rfl, rfl⟩ rfl
      rfl (hk.fits_program rfl rfl) rfl trivial⟩
  case sMode =>
    have hk := hkick rfl
    exact ⟨_, procStep_sMode hp, hk.program ⟨rfl, rfl, rfl, rfl, rfl, rfl, rfl, rfl, rfl, rfl⟩ rfl
      rfl (hk.fits_program rfl rfl) rfl trivial⟩
  case sStart => exact ⟨_, procStep_sStart hp, (hkick rfl).start⟩
  case poll => exact ⟨_, procStep_poll hp, (hkick rfl).poll hp⟩
  case cMode p =>
    have hf := hpoll rfl
    have hk : InKick (s.busClear .ctrl s.chunk.ctrlMask) :=
      (hkick rfl).bus ⟨rfl, rfl, rfl, rfl, rfl, rfl, rfl, rfl, rfl, rfl⟩ rfl rfl
    exact ⟨_, procStep_cMode hp, hk.afterClear hf (h.sync_of_run (by rw [hp]; rfl) hf) p⟩
  case readback j w =>
    rw [procStep_readback hp]
    exact (hkick rfl).readback hp
  case finishCs =>
    have hf := hpoll rfl
    exact ⟨_, procStep_finishCs hp, inv_setCs h
      (by simp [hf, h.sync_of_run (by rw [hp]; rfl) hf, posFits]) (by rw [hf]; rfl) trivial
      (fun _ => hcounters) (by decide)⟩
  case finishRespond =>
    exact ⟨_, procStep_finishRespond hp, endPoll_inv h (by rw [hcs, hpoll rfl]; rfl) hcounters.2 _⟩
  case abortCs st =>
    have hf := hpoll rfl
    exact ⟨_, procStep_abortCs hp, inv_setCs h
      (by simp [hf, h.sync_of_run (by rw [hp]; rfl) hf, posFits]) (by rw [hf]; rfl) hlocals
      (fun _ => hcounters) nofun⟩
  case abortRespond st =>
    have hf := hpoll rfl
    obtain ⟨-, hcount⟩ := hcounters
    rw [h.sync_of_run (by rw [hp]; rfl) hf, if_neg (by decide)] at hcount
    exact ⟨_, procStep_abortRespond hp, endPoll_inv h (by rw [hcs, hf]; rfl) hcount _⟩
  case acceptRespond =>
    have hf := hpoll rfl
    have ha : s.ctx.reqOp.isAsync = true := by
      have hfits := h.fits
      rwa [hf, hp] at hfits
    exact ⟨_, procStep_acceptRespond hp,
      (hkick rfl).toWaitIrq ha ⟨rfl, rfl, rfl, rfl, rfl, rfl, rfl, rfl, rfl, rfl⟩ rfl rfl⟩
  case isrClear =>
    have hk := hkick rfl
    have hf := hisr (fun _ => rfl)
    exact ⟨_, procStep_isrClear hp, hk.program ⟨rfl, rfl, rfl, rfl, rfl, rfl, rfl, rfl, rfl, rfl⟩ rfl
      rfl (by simp [hf, h.async_of_isr hf, posFits]) rfl trivial⟩
  case isrStatus =>
    have hf := hisr (fun _ => rfl)
    have hk : InKick (s.busRead .status) :=
      (hkick rfl).bus ⟨rfl, rfl, rfl, rfl, rfl, rfl, rfl, rfl, rfl, rfl⟩ rfl rfl
    exact ⟨_, procStep_isrStatus hp, hk.afterIsrStatus hf _⟩
  case finishAsyncCs =>
    have hf := hisr (fun _ => rfl)
    exact ⟨_, procStep_finishAsyncCs hp, inv_setCs h (by simp [hf, h.async_of_isr hf, posFits])
      (by rw [hf]; rfl) trivial (fun _ => hcounters) (by decide)⟩
  case finishAsyncEmit =>
    exact ⟨_, procStep_finishAsyncEmit hp, endAsync_inv h (by rw [hcs, hisr (fun _ => rfl)]; rfl) _⟩
  case abortAsyncCs =>
    have hf := hisr (fun _ => rfl)
    exact ⟨_, procStep_abortAsyncCs hp, inv_setCs h (by simp [hf, h.async_of_isr hf, posFits])
      (by rw [hf]; rfl) trivial (fun _ => hcounters) (by decide)⟩
  case abortAsyncEmit =>
    exact ⟨_, procStep_abortAsyncEmit hp, endAsync_inv h (by rw [hcs, hisr (fun _ => rfl)]; rfl) _⟩

/-- The entry of the interrupt keeps the invariant (R240). -/
theorem takeInterrupt_inv {s : State} (h : s.Inv) (hf : s.fsm = .waitIrq) : s.takeInterrupt.Inv := by
  have hb := busy_of_not_idle h (by rw [hf]; decide)
  have hreq := h.request hb
  obtain ⟨ha, hp⟩ : s.ctx.reqOp.isAsync = true ∧ s.pos = .none := by
    have hfits := h.fits
    simpa [hf, posFits] using hfits
  have hcs := h.cs
  have hcounters := hreq.counters
  rw [hf] at hcs
  rw [hp] at hcounters
  constructor
  · simp [hb]
  · exact h.mask
  · simp [ha, posFits]
  · exact hcs
  · exact h.poll_le
  · exact h.ci_le
  · trivial
  · intro hno
    rw [State.takeInterrupt_busy, hb] at hno
    cases hno
  · intro _
    exact ⟨hreq.context, hreq.total, hcounters, nofun, hreq.callback⟩

/-- Every step of the block answers and keeps the invariant. -/
theorem blockStep_inv {s : State} (h : s.Inv) : ∃ t, blockStep s = .next t ∧ t.Inv := by
  cases hf : s.fsm with
  | idle => exact ⟨s, blockStep_idle hf, h⟩
  | waitIrq =>
    refine ⟨_, blockStep_waitIrq hf, ?_⟩
    split
    · exact takeInterrupt_inv h hf
    · exact h
  | run =>
    rw [blockStep_run hf]
    exact procStep_inv h (.inl hf)
  | isr =>
    rw [blockStep_isr hf]
    exact procStep_inv h (.inr hf)

/-! ### Inputs -/

/-- Taking an input does not enter the invariant. -/
theorem popInput_inv {s : State} (h : s.Inv) : s.popInput.Inv :=
  inv_congr h rfl rfl rfl rfl rfl rfl rfl rfl rfl rfl rfl rfl

/-- A refusal keeps the invariant. -/
theorem refuse_inv {s : State} (h : s.Inv) (st : Status) : (s.refuse st).Inv :=
  inv_congr h rfl rfl rfl rfl rfl rfl rfl rfl rfl rfl rfl rfl

/-- A session command at an idle block writes session registers alone, so the block stays idle. -/
theorem inv_of_session {s t : State} (h : s.Inv) (hb : s.busy = false) (hbusy : t.busy = false)
    (hfsm : t.fsm = s.fsm) (hpos : t.pos = s.pos) (hmask : t.irqMask = false)
    (hcs : t.csState = s.csState) (hpoll : t.pollCnt = s.pollCnt) (hcfg : t.config = s.config)
    (hci : t.ci = s.ci) (htotal : t.totalChunks = s.totalChunks)
    (hcount : t.completedCount = s.completedCount) : t.Inv := by
  have hf := h.busy_iff.mp hb
  have hp : s.pos = .none := by
    have hfits := h.fits
    simpa [hf, posFits] using hfits
  have hdeasserted : s.csState = .deasserted := by rw [h.cs, hf]; rfl
  exact inv_of_idle hbusy (hfsm.trans hf) (hpos.trans hp) hmask (hcs.trans hdeasserted)
    (by rw [hpoll, hcfg]; exact h.poll_le) (by rw [hci, htotal]; exact h.ci_le)
    (hcount.trans (h.idle_count hb))

/-- Every end of a command's step keeps the invariant. -/
theorem exec_inv {i : Instr} {s t : State} (h : s.Inv) (hexec : exec i s = .next t) : t.Inv := by
  cases exec_cases hexec with
  | invalid ht => subst ht; exact refuse_inv h _
  | busy hb ht => subst ht; rw [withMask_self h.mask]; exact refuse_inv h _
  | configured ord cfg hi hb ht =>
    subst ht
    exact inv_of_session h hb hb rfl rfl rfl rfl rfl rfl rfl rfl rfl
  | registered cbh udata hi hb ht =>
    subst ht
    exact inv_of_session h hb hb rfl rfl rfl rfl rfl rfl rfl rfl rfl
  | latched q hi hwf hb ha hc ht => subst ht; exact latch_inv h hi hwf hb ha hc

/-- A reset state meets the invariant (R300). -/
theorem hardReset_inv (s : State) : s.hardReset.Inv :=
  inv_of_idle rfl rfl rfl rfl rfl (Nat.zero_le _) (Nat.zero_le _) rfl

/-- Settles O46: each kind of step keeps the invariant, a procedure's position by position. -/
theorem stepKeepsTheInvariant : Obligations.StepKeepsTheInvariant := by
  intro s t h hstep
  cases step_cases hstep with
  | block u hu _ hblock =>
    have hinv : u.Inv := by
      rcases hu with rfl | rfl
      · exact h
      · exact popInput_inv h
    obtain ⟨t', ht', hinv'⟩ := blockStep_inv hinv
    rw [hblock] at ht'
    cases ht'
    exact hinv'
  | illegal r rest hi ht => subst ht; exact refuse_inv (popInput_inv h) _
  | command r rest i hi hd hexec => exact exec_inv (popInput_inv h) hexec
  | pulse rest hi ht =>
    obtain ⟨c, irq, heq⟩ := irqPulse_cases s.popInput
    rw [ht, heq]
    exact inv_congr h rfl rfl rfl rfl rfl rfl rfl rfl rfl rfl rfl rfl
  | ended rest hi ht =>
    obtain ⟨c, n, heq⟩ := transferEnd_cases s.popInput
    rw [ht, heq]
    exact inv_congr h rfl rfl rfl rfl rfl rfl rfl rfl rfl rfl rfl rfl
  | reset rest hi ht => subst ht; exact hardReset_inv _

/-- The request port stops only at an ill-formed record. -/
theorem takeRecord_next_or_illFormed (r : Record) (s : State) :
    (∃ t, takeRecord r s = .next t) ∨
      (takeRecord r s = .fault .illFormedRecord ∧ r.tx.length ≠ r.txlen.toNat) := by
  cases hd : decode r with
  | ok i =>
    obtain ⟨hwf, -⟩ := decodedWordIsReencoded r i hd
    obtain ⟨t, ht⟩ := exec_next hwf s
    exact .inl ⟨t, by simp [takeRecord, hd, ht]⟩
  | error e =>
    cases e with
    | reservedBits => exact .inl ⟨_, by simp only [takeRecord, hd]; rfl⟩
    | reservedOp => exact .inl ⟨_, by simp only [takeRecord, hd]; rfl⟩
    | badCmdLen => exact .inl ⟨_, by simp only [takeRecord, hd]; rfl⟩
    | badOrd => exact .inl ⟨_, by simp only [takeRecord, hd]; rfl⟩
    | illFormedRecord =>
      refine .inr ⟨by simp only [takeRecord, hd], fun hlen => ?_⟩
      have hwf : r.wf = true := decide_eq_true hlen
      simp only [decode, hwf, if_true] at hd
      cases hcw : decodeCw r.cw with
      | ok o => simp [hcw] at hd
      | error e =>
        simp only [hcw, Except.error.injEq] at hd
        exact decodeCw_ne_illFormedRecord r.cw (by rw [hcw, hd])

/-- Settles O47: the block's own steps have a value under the invariant, so only the port can stop. -/
theorem onlyIllFormedRecordsStop : Obligations.OnlyIllFormedRecordsStop := by
  intro s h
  cases hi : s.inputs with
  | nil =>
    obtain ⟨t, ht, -⟩ := blockStep_inv h
    exact .inl ⟨t, (step_of_no_input hi).trans ht⟩
  | cons input rest =>
    cases input with
    | tick =>
      obtain ⟨t, ht, -⟩ := blockStep_inv (s := { s with inputs := rest })
        (inv_congr h rfl rfl rfl rfl rfl rfl rfl rfl rfl rfl rfl rfl)
      exact .inl ⟨t, (step_of_tick hi).trans ht⟩
    | command r =>
      rw [step_of_command hi]
      rcases takeRecord_next_or_illFormed r { s with inputs := rest } with hnext | ⟨hfault, hne⟩
      · exact .inl hnext
      · exact .inr ⟨hfault, r, rest, rfl, hne⟩
    | irqPulse => exact .inl ⟨_, step_of_irqPulse hi⟩
    | transferEnd => exact .inl ⟨_, step_of_transferEnd hi⟩
    | reset => exact .inl ⟨_, step_of_reset hi⟩

/-- Settles O45. -/
theorem resetMeetsTheInvariant : Obligations.ResetMeetsTheInvariant :=
  ⟨hardReset_inv State.reset, rfl, trivial⟩

end Sys2Proof.Machine

/-! The mode bits (R159, R308): a kick's programming sets the chunk's own, START sets none of them, and the
clearing after it takes them back, so outside kicks they are clear. -/

namespace Sys2Proof.Machine

/-! ### The control register's mode bits -/

/-- Of the mode bits a control word holds those of `mask` at most. -/
def ModeWithin (g : Config) (w mask : Word) : Prop := w &&& (g.mbEn ||| g.duplexEn) &&& ~~~mask = 0

/-- The control register, where the controller is the reference one. -/
def State.ctrlBits (s : State) : Option Word :=
  match s.controller with
  | .oracle => none
  | .reference c => some c.ctrl

/-- The mode bits a state may hold: its chunk's own within a kick, else none. -/
def State.modeAllowed (s : State) : Word := if modeOn s then s.chunk.ctrlMask else 0

theorem modeBitsOk_iff (s : State) :
    modeBitsOk s ↔ ∀ w, s.ctrlBits = some w → ModeWithin s.config w s.modeAllowed := by
  unfold modeBitsOk State.ctrlBits ModeWithin State.modeAllowed
  cases s.controller with
  | oracle => simp
  | reference c => simp

/-- Bit by bit: every mode bit of the word is one of the mask. -/
theorem modeWithin_iff {g : Config} {w mask : Word} :
    ModeWithin g w mask ↔ ∀ i < 32, w.getLsbD i = true → (g.mbEn ||| g.duplexEn).getLsbD i = true →
      mask.getLsbD i = true := by
  rw [ModeWithin, BitVec.eq_of_getLsbD_eq_iff]
  refine forall₂_congr fun i hi => ?_
  simp only [BitVec.getLsbD_and, BitVec.getLsbD_not, hi, decide_true, Bool.true_and,
    show (0 : Word).getLsbD i = false from BitVec.getLsbD_zero]
  cases w.getLsbD i <;> cases (g.mbEn ||| g.duplexEn).getLsbD i <;> simp

theorem ModeWithin.mono {g : Config} {w : Word} (h : ModeWithin g w 0) (mask : Word) :
    ModeWithin g w mask := by
  rw [modeWithin_iff] at h ⊢
  intro i hi hw hmode
  exact absurd (h i hi hw hmode) (by simp)

/-- Setting the mask of a kick from no mode bits leaves the mask's. -/
theorem ModeWithin.set {g : Config} {w : Word} (h : ModeWithin g w 0) (mask : Word) :
    ModeWithin g (w ||| mask) mask := by
  have hkeep := modeWithin_iff.mp (h.mono mask)
  rw [modeWithin_iff]
  intro i hi hw hmode
  rw [BitVec.getLsbD_or, Bool.or_eq_true] at hw
  exact hw.elim (hkeep i hi · hmode) id

/-- START is no mode bit (R9). -/
theorem ModeWithin.start {g : Config} {w mask : Word} (h : ModeWithin g w mask) :
    ModeWithin g (w ||| g.start) mask := by
  have hstart : (g.mbEn ||| g.duplexEn) &&& g.start = 0 := by
    rw [BitVec.and_or_distrib_right, mbEn_and_start, duplexEn_and_start]
    rfl
  rw [modeWithin_iff] at h ⊢
  intro i hi hw hmode
  rw [BitVec.getLsbD_or, Bool.or_eq_true] at hw
  refine hw.elim (h i hi · hmode) fun hbit => ?_
  have hand := congrArg (BitVec.getLsbD · i) hstart
  simp only [BitVec.getLsbD_and, hmode, hbit] at hand
  simp at hand

/-- Clearing the mask takes the mode bits back. -/
theorem ModeWithin.clear {g : Config} {w mask : Word} (h : ModeWithin g w mask) :
    ModeWithin g (w &&& ~~~mask) 0 := by
  rw [modeWithin_iff] at h ⊢
  intro i hi hw hmode
  simp only [BitVec.getLsbD_and, BitVec.getLsbD_not, hi, decide_true, Bool.true_and,
    Bool.and_eq_true, Bool.not_eq_true'] at hw
  exact absurd (h i hi hw.1 hmode) (by simp [hw.2])

/-! ### The control register under the port operations -/

theorem write_ctrl {c : RefController} {r : Reg} (v : Word) (h : r ≠ .ctrl) :
    (c.write r v).ctrl = c.ctrl := by
  cases r with
  | ctrl => exact absurd rfl h
  | opcode => rfl
  | data j => rfl
  | mblen => rfl
  | status => rfl

theorem ctrlBits_congr {s t : State} (h : t.controller = s.controller) : t.ctrlBits = s.ctrlBits := by
  unfold State.ctrlBits
  rw [h]

theorem busWrite_ctrlBits {s : State} {r : Reg} (v : Word) (h : r ≠ .ctrl) :
    (s.busWrite r v).ctrlBits = s.ctrlBits := by
  unfold State.ctrlBits State.busWrite
  cases s.controller with
  | oracle => rfl
  | reference c => exact congrArg some (write_ctrl v h)

theorem busWriteLength_ctrlBits (s : State) (c d : Nat) (x : Dir) :
    (s.busWriteLength c d x).ctrlBits = s.ctrlBits := by
  unfold State.ctrlBits State.busWriteLength
  cases s.controller with
  | oracle => rfl
  | reference c => rfl

theorem busSet_ctrlBits (s : State) (m : Word) :
    (s.busSet .ctrl m).ctrlBits = s.ctrlBits.map (· ||| m) := by
  unfold State.ctrlBits State.busSet
  cases s.controller with
  | oracle => rfl
  | reference c => exact congrArg some (stored_setBits c s.config s.ctx.ord .ctrl .ctrl m)

theorem busClear_ctrlBits (s : State) (m : Word) :
    (s.busClear .ctrl m).ctrlBits = s.ctrlBits.map (· &&& ~~~m) := by
  unfold State.ctrlBits State.busClear
  cases s.controller with
  | oracle => rfl
  | reference c => rfl

theorem irqPulse_ctrlBits (s : State) : s.irqPulse.ctrlBits = s.ctrlBits := by
  cases hc : s.controller with
  | oracle => rw [irqPulse_oracle hc]; rfl
  | reference c =>
    cases hr : c.irqReady with
    | true => rw [irqPulse_ready hc hr]; simp [State.ctrlBits, hc]
    | false => rw [irqPulse_not_ready hc hr]

theorem transferEnd_ctrlBits (s : State) : s.transferEnd.ctrlBits = s.ctrlBits := by
  cases hc : s.controller with
  | oracle => rw [transferEnd_oracle hc]
  | reference c =>
    cases hk : c.kick with
    | none => rw [transferEnd_idle hc hk]
    | some k => rw [transferEnd_kick hc hk]; simp [State.ctrlBits, hc, RefController.endKick]

/-! ### The condition under a step -/

section

variable {s t : State} (h : modeBitsOk s) (hcfg : t.config = s.config)

include h hcfg

/-- A step that leaves the control register alone and holds the same kick keeps the condition. -/
theorem modeBitsOk_keep (hbits : t.ctrlBits = s.ctrlBits) (hon : modeOn t = modeOn s)
    (hchunk : t.chunk = s.chunk) : modeBitsOk t := by
  rw [modeBitsOk_iff] at h ⊢
  rwa [hbits, hcfg, State.modeAllowed, hon, hchunk]

/-- From a state with no mode bits a step that leaves the control register alone may go anywhere. -/
theorem modeBitsOk_of_off (hbits : t.ctrlBits = s.ctrlBits) (hoff : modeOn s = false) :
    modeBitsOk t := by
  rw [modeBitsOk_iff] at h ⊢
  intro w hw
  have hw' := h w (hbits ▸ hw)
  rw [State.modeAllowed, hoff] at hw'
  rw [hcfg]
  exact ModeWithin.mono hw' _

/-- After the clearing of the chunk's mode bits a step may go anywhere. -/
theorem modeBitsOk_of_clear (hon : modeOn s = true)
    (hbits : t.ctrlBits = s.ctrlBits.map (· &&& ~~~s.chunk.ctrlMask)) : modeBitsOk t := by
  rw [modeBitsOk_iff] at h ⊢
  intro w hw
  rw [hbits, Option.map_eq_some_iff] at hw
  obtain ⟨v, hv, rfl⟩ := hw
  have hv' := h v hv
  rw [State.modeAllowed, hon] at hv'
  rw [hcfg]
  exact (ModeWithin.clear hv').mono _

/-- The setting of the chunk's mode bits enters its kick. -/
theorem modeBitsOk_of_set (hoff : modeOn s = false) (hon : modeOn t = true)
    (hchunk : t.chunk = s.chunk)
    (hbits : t.ctrlBits = s.ctrlBits.map (· ||| s.chunk.ctrlMask)) : modeBitsOk t := by
  rw [modeBitsOk_iff] at h ⊢
  intro w hw
  rw [hbits, Option.map_eq_some_iff] at hw
  obtain ⟨v, hv, rfl⟩ := hw
  have hv' := h v hv
  rw [State.modeAllowed, hoff] at hv'
  rw [hcfg, State.modeAllowed, hon, hchunk]
  exact ModeWithin.set hv' _

/-- START stays within the kick. -/
theorem modeBitsOk_of_start (hon : modeOn t = modeOn s) (hchunk : t.chunk = s.chunk)
    (hbits : t.ctrlBits = s.ctrlBits.map (· ||| s.config.start)) : modeBitsOk t := by
  rw [modeBitsOk_iff] at h ⊢
  intro w hw
  rw [hbits, Option.map_eq_some_iff] at hw
  obtain ⟨v, hv, rfl⟩ := hw
  rw [hcfg, State.modeAllowed, hon, hchunk]
  exact ModeWithin.start (h v hv)

end

/-- In a running procedure the position alone says whether the mode bits may be set. -/
theorem modeOn_of_running {s : State} (hrun : s.fsm = .run ∨ s.fsm = .isr) {b : Bool}
    (hp : modeOn { State.reset with pos := s.pos } = b) : modeOn s = b := by
  rw [← hp]
  unfold modeOn
  rcases hrun with hf | hf <;> rw [hf] <;> rfl

/-- The mode bits of an async request's chunks are MB_EN alone (R191). -/
theorem ctrlMask_of_async {s : State} (ha : s.ctx.reqOp.isAsync = true) :
    s.chunk.ctrlMask = s.config.mbEn := by
  rcases ctrlMask_cases s.config s.ctx s.ci.toNat with hmask | ⟨hop, -⟩
  · exact hmask
  · rw [hop] at ha
    cases ha

/-- A kick's START keeps the condition: it waits, responds or polls within the same kick. -/
theorem modeBitsOk_stepStart {s : State} (h : modeBitsOk s) (hrun : s.fsm = .run ∨ s.fsm = .isr)
    (hp : s.pos = .sStart) : modeBitsOk (stepStart s) := by
  have hon : modeOn s = true := modeOn_of_running hrun (by rw [hp]; rfl)
  have hmove := stepStart_move s
  have hafter : modeOn (stepStart s) = true ∧ (stepStart s).chunk = s.chunk := by
    by_cases hf : s.fsm = .isr
    · rw [stepStart, afterStart_isr (s := s.busSet .ctrl s.config.start) hf]
      exact ⟨rfl, rfl⟩
    · have hf' := hrun.resolve_right hf
      cases ha : s.ctx.reqOp.isAsync with
      | true =>
        rw [stepStart, afterStart_async (s := s.busSet .ctrl s.config.start) hf' ha]
        exact ⟨by simp [modeOn], rfl⟩
      | false =>
        rw [stepStart, afterStart_polling (s := s.busSet .ctrl s.config.start) hf' ha]
        exact ⟨by simp [modeOn], rfl⟩
  exact modeBitsOk_of_start h hmove.config (hafter.1.trans hon.symm) hafter.2
    ((ctrlBits_congr hmove.controller).trans (busSet_ctrlBits s _))

/-- A status read of `poll` stays within the kick. -/
theorem modeOn_stepPoll (s : State) : modeOn (stepPoll s) = true := by
  unfold modeOn
  rw [stepPoll_pos]
  split_ifs <;> simp

/-- A step of a procedure keeps the condition on the mode bits. -/
theorem procStep_modeBitsOk {s t : State} (hinv : s.Inv) (h : modeBitsOk s)
    (hrun : s.fsm = .run ∨ s.fsm = .isr) (hstep : procStep s = .next t) : modeBitsOk t := by
  have hon : ∀ {b}, modeOn { State.reset with pos := s.pos } = b → modeOn s = b :=
    modeOn_of_running hrun
  cases hp : s.pos <;> rw [hp] at hon
  case none => rw [procStep_none hp] at hstep; cases hstep; exact h
  case csAssert =>
    rw [procStep_csAssert hp] at hstep; cases hstep
    exact modeBitsOk_of_off h rfl rfl (hon rfl)
  case wOpcode =>
    rw [procStep_wOpcode hp] at hstep
    obtain ⟨w, p, rfl⟩ := stepOpcode_acts hstep
    exact modeBitsOk_of_off h rfl (busWrite_ctrlBits w nofun) (hon rfl)
  case wData j =>
    rw [procStep_wData hp] at hstep
    obtain ⟨w, p, rfl⟩ := stepData_acts hstep
    exact modeBitsOk_of_off h rfl (busWrite_ctrlBits w nofun) (hon rfl)
  case wMblen =>
    rw [procStep_wMblen hp] at hstep; cases hstep
    exact modeBitsOk_of_off h rfl (busWriteLength_ctrlBits ..) (hon rfl)
  case sMode =>
    rw [procStep_sMode hp] at hstep; cases hstep
    exact modeBitsOk_of_set h rfl (hon rfl) (by simp [modeOn, stepMode]) rfl (busSet_ctrlBits ..)
  case sStart =>
    rw [procStep_sStart hp] at hstep; cases hstep
    exact modeBitsOk_stepStart h hrun hp
  case poll =>
    rw [procStep_poll hp] at hstep; cases hstep
    exact modeBitsOk_keep h rfl rfl ((modeOn_stepPoll s).trans (hon rfl).symm) rfl
  case cMode p =>
    rw [procStep_cMode hp] at hstep; cases hstep
    have hmove := afterClear_move (s.busClear .ctrl s.chunk.ctrlMask) p
    exact modeBitsOk_of_clear h hmove.config (hon rfl)
      ((ctrlBits_congr hmove.controller).trans (busClear_ctrlBits ..))
  case readback j w =>
    rw [procStep_readback hp] at hstep
    have hmove := stepReadback_acts hstep
    exact modeBitsOk_of_off h hmove.config (ctrlBits_congr hmove.controller) (hon rfl)
  case finishCs =>
    rw [procStep_finishCs hp] at hstep; cases hstep
    exact modeBitsOk_of_off h rfl rfl (hon rfl)
  case finishRespond =>
    rw [procStep_finishRespond hp] at hstep; cases hstep
    exact modeBitsOk_of_off h rfl rfl (hon rfl)
  case abortCs st =>
    rw [procStep_abortCs hp] at hstep; cases hstep
    exact modeBitsOk_of_off h rfl rfl (hon rfl)
  case abortRespond st =>
    rw [procStep_abortRespond hp] at hstep; cases hstep
    exact modeBitsOk_of_off h rfl rfl (hon rfl)
  case acceptRespond =>
    rw [procStep_acceptRespond hp] at hstep; cases hstep
    exact modeBitsOk_keep h rfl rfl (hon rfl).symm rfl
  case isrClear =>
    rw [procStep_isrClear hp] at hstep; cases hstep
    have hisr := hinv.isr_of_fits hrun (by rw [hp]; exact fun _ => rfl)
    rw [← ctrlMask_of_async (hinv.async_of_isr hisr)]
    exact modeBitsOk_of_clear h rfl (hon rfl) (busClear_ctrlBits ..)
  case isrStatus =>
    rw [procStep_isrStatus hp] at hstep; cases hstep
    have hmove := afterIsrStatus_move (s.busRead .status) (s.readValue .status)
    exact modeBitsOk_of_off h hmove.config (ctrlBits_congr hmove.controller) (hon rfl)
  case finishAsyncCs =>
    rw [procStep_finishAsyncCs hp] at hstep; cases hstep
    exact modeBitsOk_of_off h rfl rfl (hon rfl)
  case finishAsyncEmit =>
    rw [procStep_finishAsyncEmit hp] at hstep; cases hstep
    exact modeBitsOk_of_off h rfl rfl (hon rfl)
  case abortAsyncCs =>
    rw [procStep_abortAsyncCs hp] at hstep; cases hstep
    exact modeBitsOk_of_off h rfl rfl (hon rfl)
  case abortAsyncEmit =>
    rw [procStep_abortAsyncEmit hp] at hstep; cases hstep
    exact modeBitsOk_of_off h rfl rfl (hon rfl)

/-- A step of the block keeps the condition; the interrupt's entry stays within the kick it ends. -/
theorem blockStep_modeBitsOk {s t : State} (hinv : s.Inv) (h : modeBitsOk s)
    (hstep : blockStep s = .next t) : modeBitsOk t := by
  rcases blockStep_cases hstep with rfl | ⟨hf, rfl⟩ | ⟨hrun, hproc⟩
  · exact h
  · exact modeBitsOk_keep h rfl rfl (by simp [modeOn, hf]) rfl
  · exact procStep_modeBitsOk hinv h hrun hproc

/-- A command keeps the condition: it latches a request at an idle block alone. -/
theorem exec_modeBitsOk {i : Instr} {s t : State} (hinv : s.Inv) (h : modeBitsOk s)
    (hexec : exec i s = .next t) : modeBitsOk t := by
  cases exec_cases hexec with
  | invalid ht => subst ht; exact modeBitsOk_keep h rfl rfl rfl rfl
  | busy hb ht => subst ht; exact modeBitsOk_keep h rfl rfl rfl rfl
  | configured ord cfg hi hb ht => subst ht; exact modeBitsOk_keep h rfl rfl rfl rfl
  | registered cbh udata hi hb ht => subst ht; exact modeBitsOk_keep h rfl rfl rfl rfl
  | latched q hi hwf hb ha hc ht =>
    subst ht
    have hf := hinv.busy_iff.mp hb
    have hp : s.pos = .none := by
      have hfits := hinv.fits
      simpa [hf, posFits] using hfits
    exact modeBitsOk_of_off h rfl rfl (by simp [modeOn, hf, hp])

/-- Settles O57: only the clearing of a kick's own bits and its end leave the kick. -/
theorem modeBitsClearOutsideKicks : Obligations.ModeBitsClearOutsideKicks := by
  intro s t hinv h hr hstep
  have hpop : modeBitsOk s.popInput := modeBitsOk_keep h rfl rfl rfl rfl
  cases step_cases hstep with
  | block u hu _ hblock =>
    rcases hu with rfl | rfl
    · exact blockStep_modeBitsOk hinv h hblock
    · exact blockStep_modeBitsOk (popInput_inv hinv) hpop hblock
  | illegal r rest hi ht => subst ht; exact modeBitsOk_keep h rfl rfl rfl rfl
  | command r rest i hi hd hexec => exact exec_modeBitsOk (popInput_inv hinv) hpop hexec
  | pulse rest hi ht =>
    have hbits := irqPulse_ctrlBits s.popInput
    obtain ⟨c, irq, heq⟩ := irqPulse_cases s.popInput
    rw [← ht] at hbits
    rw [← ht] at heq
    exact modeBitsOk_keep hpop (by rw [heq]) hbits (by rw [heq]; rfl) (by rw [heq]; rfl)
  | ended rest hi ht =>
    have hbits := transferEnd_ctrlBits s.popInput
    obtain ⟨c, n, heq⟩ := transferEnd_cases s.popInput
    rw [← ht] at hbits
    rw [← ht] at heq
    exact modeBitsOk_keep hpop (by rw [heq]) hbits (by rw [heq]; rfl) (by rw [heq]; rfl)
  | reset rest hi ht => exact absurd (by rw [hi]; rfl) hr

end Sys2Proof.Machine

/-! One kick (41_engine_common.md section 3, 44_async_completion.md section 3): its programming, its poll under
given answers, its classification and its readback, each as a run that says what it emits, what it reads
and what it keeps. -/

namespace Sys2Proof.Machine

/-! ### Answers taken by a run (R61) -/

/-- Under the oracle the values read from `s` to `t` are the listed answers, where the list holds as
many. -/
def Answered (s t : State) (vs : List Word) : Prop :=
  s.controller = .oracle → vs.length ≤ s.answers.length →
    vs = s.answers.take vs.length ∧ t.answers = s.answers.drop vs.length

theorem Answered.none {s t : State} (h : t.answers = s.answers) : Answered s t [] :=
  fun _ _ => ⟨rfl, h⟩

/-- Answers of a run and of the run after it. -/
theorem Answered.trans {s t u : State} {vs ws : List Word} (h : Answered s t vs)
    (ho : s.controller = .oracle → t.controller = .oracle) (g : Answered t u ws) :
    Answered s u (vs ++ ws) := by
  intro horacle hlen
  rw [List.length_append] at hlen ⊢
  obtain ⟨hvs, hdrop⟩ := h horacle (by omega)
  obtain ⟨hws, hdrops⟩ := g (ho horacle) (by rw [hdrop, List.length_drop]; omega)
  rw [hdrop] at hws hdrops
  refine ⟨?_, by rw [hdrops, List.drop_drop]⟩
  rw [List.take_add, ← hvs, ← hws]

/-- The values read are the ones the list begins with. -/
theorem Answered.eq_of_append {s t : State} {vs ws rest : List Word} (h : Answered s t vs)
    (ho : s.controller = .oracle) (ha : s.answers = ws ++ rest) (hlen : ws.length = vs.length) :
    vs = ws ∧ t.answers = rest := by
  obtain ⟨hvs, hdrop⟩ := h ho (by rw [ha, List.length_append]; omega)
  rw [ha, ← hlen] at hvs hdrop
  exact ⟨by rw [hvs, List.take_left' rfl], by rw [hdrop, List.drop_left' rfl]⟩

/-- One read takes one answer. -/
theorem answered_busRead (s : State) (r : Reg) {t : State} (ht : t.answers = (s.busRead r).answers) :
    Answered s t [s.readValue r] := by
  intro ho hlen
  cases ha : s.answers with
  | nil => rw [ha] at hlen; cases hlen
  | cons v rest =>
    obtain ⟨hv, hread⟩ := oracle_read ho ha r
    exact ⟨by rw [hv]; rfl, by rw [ht, hread]; rfl⟩

/-! ### Runs of the register bus -/

/-- A run of `n` steps from `s` to `t` that emits `es`, reads `vs` and keeps what the register-bus
operations keep. -/
structure BusRun (n : Nat) (s t : State) (vs : List Word) (es : List Event) : Prop where
  steps : runSteps n s = .next t
  frame : BusFrame s t
  answered : Answered s t vs
  trace : t.trace = s.trace ++ es

theorem BusFrame.refl (s : State) : BusFrame s s :=
  ⟨rfl, rfl, rfl, rfl, rfl, rfl, rfl, rfl, rfl, rfl, rfl, id⟩

/-- A change of position alone. -/
theorem BusFrame.pos (s : State) (p : Pos) : BusFrame s { s with pos := p } :=
  ⟨rfl, rfl, rfl, rfl, rfl, rfl, rfl, rfl, rfl, rfl, rfl, id⟩

theorem BusRun.refl (s : State) : BusRun 0 s s [] [] :=
  ⟨rfl, .refl s, .none rfl, (List.append_nil _).symm⟩

theorem BusRun.trans {n m : Nat} {s t u : State} {vs ws : List Word} {es es' : List Event}
    (h : BusRun n s t vs es) (g : BusRun m t u ws es') :
    BusRun (n + m) s u (vs ++ ws) (es ++ es') where
  steps := (runSteps_add m h.steps).trans g.steps
  frame := h.frame.trans g.frame
  answered := h.answered.trans h.frame.oracle g.answered
  trace := by rw [g.trace, h.trace, List.append_assoc]

theorem WriteRun.toBusRun {n : Nat} {s t : State} {es : List Event} (h : WriteRun n s t es) :
    BusRun n s t [] es :=
  ⟨h.steps, h.frame, .none h.answers, h.trace⟩

theorem PollRun.toBusRun {s t : State} {vs : List Word} (h : PollRun s t vs) :
    BusRun vs.length s t vs (statusEvents vs) :=
  ⟨h.steps, h.frame, h.answers, h.trace⟩

/-- A step of a running procedure that reads one register. -/
theorem BusRun.read {s : State} {r : Reg} {p : Pos} (hi : s.inputs = [])
    (hf : s.fsm = .run ∨ s.fsm = .isr) (hstep : procStep s = .next { s.busRead r with pos := p }) :
    BusRun 1 s { s.busRead r with pos := p } [s.readValue r] [.read r (s.readValue r)] :=
  ⟨runSteps_one ((step_of_running hi hf).trans hstep), busRead_frame s r p,
    answered_busRead s r rfl, rfl⟩

/-! ### `readback` (R160) -/

/-- The events of one more slot read. -/
theorem readbackEvents_concat (c : Chunk) (j : Nat) (ws : List Word) (w : Word) :
    readbackEvents c j (ws ++ [w]) =
      readbackEvents c j ws ++ [.read (.data (readbackSlot c (j + ws.length))) w] := by
  induction ws generalizing j with
  | nil => rfl
  | cons v ws ih =>
    simp only [List.cons_append, readbackEvents, ih, List.length_cons]
    rw [show j + 1 + ws.length = j + (ws.length + 1) by omega]

/-- The first `k` slot reads of a readback, where it makes more. -/
theorem readback_reads {s : State} (hi : s.inputs = []) (hf : s.fsm = .run ∨ s.fsm = .isr)
    (hp : s.pos = .readback 0 []) {k : Nat} (hk : k < readbackCount s.config s.chunk) :
    ∃ ws t, ws.length = k ∧ BusRun k s t ws (readbackEvents s.chunk 0 ws) ∧
      t.pos = .readback k ws := by
  induction k with
  | zero => exact ⟨[], s, rfl, .refl s, hp⟩
  | succ k ih =>
    obtain ⟨ws, t, hlen, hrun, hpos⟩ := ih (by omega)
    have hframe := hrun.frame
    have hmore : k + 1 < readbackCount t.config t.chunk := by
      rw [hframe.config, hframe.chunk]
      exact hk
    have hread := BusRun.read (hframe.no_input hi) (hframe.running hf)
      ((procStep_readback hpos).trans (stepReadback_more ws hmore))
    have hall := hrun.trans hread
    have hevents := readbackEvents_concat s.chunk 0 ws (t.readValue (t.readbackReg k))
    have hreg : t.readbackReg k = .data (readbackSlot s.chunk k) := by
      rw [State.readbackReg, hframe.chunk]
    rw [Nat.zero_add, hlen, ← hreg] at hevents
    rw [← hevents] at hall
    exact ⟨_, _, by simp [hlen], hall, rfl⟩

/-- A whole readback reads every slot of the chunk's receive bytes, decodes them into `rx_buf`, and ends
the kick. -/
theorem readback_run {s : State} (hi : s.inputs = []) (hf : s.fsm = .run ∨ s.fsm = .isr)
    (hp : s.pos = .readback 0 []) (hc : ChunkInDomain s.config s.chunk) (hrx : 0 < s.chunk.rxN) :
    ∃ ws bytes u, ws.length = readbackCount s.config s.chunk ∧
      unpackSlots s.config ws s.chunk.rxN s.ctx.ord = some bytes ∧ bytes.length = s.chunk.rxN ∧
      runSteps ws.length s = .next ({ u with
        ctx := { s.ctx with rxBuf := fillRx s.ctx.rxBuf s.chunk.rxDst bytes } } : State).kickDone ∧
      BusFrame s u ∧ Answered s u ws ∧ u.trace = s.trace ++ readbackEvents s.chunk 0 ws := by
  have hcount := readbackCount_eq s.config s.chunk
  obtain ⟨k, hk⟩ : ∃ k, readbackCount s.config s.chunk = k + 1 :=
    ⟨_, (Nat.succ_pred_eq_of_pos (by omega)).symm⟩
  obtain ⟨ws, t, hlen, hrun, hpos⟩ := readback_reads hi hf hp (k := k) (by omega)
  have hframe := hrun.frame
  have hlast : ¬ k + 1 < readbackCount t.config t.chunk := by
    rw [hframe.config, hframe.chunk]
    omega
  obtain ⟨bytes, hb, hblen⟩ := readback_unpacks hc (ws := ws ++ [t.readValue (t.readbackReg k)])
    (by simp; omega) s.ctx.ord
  have hb' : unpackSlots t.config (ws ++ [t.readValue (t.readbackReg k)]) t.chunk.rxN t.ctx.ord =
      some bytes := by
    rw [hframe.config, hframe.chunk, hframe.ctx]
    exact hb
  have hstep : step t = .next (t.readBack k bytes).kickDone := by
    rw [step_of_running (hframe.no_input hi) (hframe.running hf), procStep_readback hpos,
      stepReadback_last hlast hb']
  refine ⟨_, bytes, t.busRead (t.readbackReg k), by simp [hlen, hk], hb, hblen, ?_,
    hframe.trans (busRead_frame t _ t.pos),
    hrun.answered.trans hframe.oracle (answered_busRead t _ rfl), ?_⟩
  · rw [List.length_append, hlen, List.length_singleton, runSteps_add 1 hrun.steps,
      runSteps_one hstep, State.readBack, hframe.ctx, hframe.chunk]
  · rw [readbackEvents_concat, Nat.zero_add, hlen, State.busRead_trace, hrun.trace, List.append_assoc,
      State.readbackReg, hframe.chunk]

/-- The end of a kick changes neither the context nor what is outside the block. -/
theorem kickDone_keeps (s : State) :
    s.kickDone.ctx = s.ctx ∧ s.kickDone.trace = s.trace ∧ s.kickDone.answers = s.answers := by
  obtain ⟨ci, cnt, p, h⟩ := kickDone_cases s
  rw [h]
  exact ⟨rfl, rfl, rfl⟩

/-- Settles O34: the whole readback is one run, and the end of the kick keeps what it left. -/
theorem readbackDecodesSlots : Obligations.ReadbackDecodesSlots := by
  intro s hi hf hp hc hrx
  obtain ⟨ws, bytes, u, hlen, hb, hblen, hsteps, hframe, hanswered, htrace⟩ :=
    readback_run hi hf hp hc hrx
  obtain ⟨hctx, htr, hans⟩ := kickDone_keeps
    { u with ctx := { s.ctx with rxBuf := fillRx s.ctx.rxBuf s.chunk.rxDst bytes } }
  refine ⟨ws, bytes, _, hlen, hsteps, htr.trans htrace, hb, hblen, hctx, fun ho hle => ?_⟩
  rw [hans]
  exact hanswered ho hle

/-! ### The classification of a polled kick (R163, R164) -/

/-- A good polled kick goes on to its readback, or counts the chunk and tests the loop (R164, R165). -/
theorem afterOk_polled {s : State} (hf : s.fsm = .run) :
    s.afterOk.fsm = .run ∧
    (0 < s.chunk.rxN → s.afterOk.pos = .readback 0 [] ∧ s.afterOk.ci = s.ci) ∧
    (s.chunk.rxN = 0 → s.afterOk.ci = s.ci + 1 ∧
      s.afterOk.pos = if (s.ci + 1).toNat < s.totalChunks.toNat then .wOpcode else .finishCs) := by
  by_cases hrx : s.chunk.rxN = 0
  · rw [afterOk_done hrx, kickDone_run (by rw [hf]; decide)]
    exact ⟨hf, fun hpos => absurd hrx (by omega), fun _ => ⟨rfl, rfl⟩⟩
  · rw [afterOk_reads (Nat.pos_of_ne_zero hrx)]
    exact ⟨hf, fun _ => ⟨rfl, rfl⟩, fun hzero => absurd hzero hrx⟩

/-- Settles O33: what `poll` returned decides between the two aborts and the good end. -/
theorem kickIsClearedThenClassified : Obligations.KickIsClearedThenClassified := by
  intro s p hi hf hp
  have hmove := afterClear_move (s.busClear .ctrl s.chunk.ctrlMask) p
  refine ⟨_, (step_of_running hi (.inl hf)).trans (procStep_cMode hp), hmove.trace, ?_⟩
  unfold stepClear
  cases p with
  | none => exact ⟨hf, fun _ => ⟨rfl, rfl⟩, nofun, nofun⟩
  | some v =>
    cases hv : statusErr s.config v with
    | true =>
      rw [afterClear_error (s := s.busClear .ctrl s.chunk.ctrlMask) hv]
      refine ⟨hf, nofun, fun _ _ _ => ⟨rfl, rfl⟩, fun u hu hno => ?_⟩
      cases hu
      rw [hv] at hno
      cases hno
    | false =>
      rw [afterClear_ok (s := s.busClear .ctrl s.chunk.ctrlMask) hv]
      obtain ⟨hfsm, hread, hdone⟩ := afterOk_polled (s := s.busClear .ctrl s.chunk.ctrlMask) hf
      refine ⟨hfsm, nofun, fun u hu hno => ?_, fun _ _ _ => ⟨hread, hdone⟩⟩
      cases hu
      rw [hv] at hno
      cases hno

/-! ### The end of a good kick, with its readback -/

/-- The state `u` with the bytes of a readback's words in the receive buffer. -/
def State.withBytes (u : State) (ws : List Word) : State :=
  { u with ctx := { u.ctx with
      rxBuf := readbackBuf u.config u.ctx.ord u.chunk ws u.ctx.rxBuf } }

/-- From the knowledge that a kick was good, the chunk's slots are read and the kick is counted. -/
theorem afterOk_run {s : State} (hi : s.inputs = []) (hf : s.fsm = .run ∨ s.fsm = .isr)
    (hc : ChunkInDomain s.config s.chunk) :
    ∃ n ws u, runSteps n s.afterOk = .next (u.withBytes ws).kickDone ∧
      ws.length = readbackCount s.config s.chunk ∧ BusFrame s u ∧ Answered s u ws ∧
      u.trace = s.trace ++ readbackEvents s.chunk 0 ws := by
  by_cases hrx : s.chunk.rxN = 0
  · have hempty : s.withBytes [] = s := by
      simp [State.withBytes, readbackBuf, hrx, unpackSlots, unpackGroups, fillRx_nil]
    refine ⟨0, [], s, ?_, ?_, .refl s, .none rfl, (List.append_nil _).symm⟩
    · rw [afterOk_done hrx, hempty]
      rfl
    · rw [readbackCount_eq, hrx]
      rfl
  · have hpos := Nat.pos_of_ne_zero hrx
    obtain ⟨ws, bytes, u, hlen, hb, -, hsteps, hframe, hanswered, htrace⟩ :=
      readback_run (s := { s with pos := .readback 0 [] }) hi hf rfl hc hpos
    have hframe' : BusFrame s u := (BusFrame.pos s _).trans hframe
    refine ⟨ws.length, ws, u, ?_, hlen, hframe', hanswered, htrace⟩
    rw [afterOk_reads hpos, hsteps, State.withBytes, readbackBuf, hframe'.config, hframe'.ctx,
      hframe'.chunk, show unpackSlots s.config ws s.chunk.rxN s.ctx.ord = some bytes from hb]
    rfl

end Sys2Proof.Machine

/-! The interrupt procedure (44_async_completion.md section 3): the two reads before the status is known, and
from there the abort, the next chunk or the end of the request. -/

namespace Sys2Proof.Machine

/-- The first two steps of the interrupt procedure clear MB_EN and read the status (R240). -/
theorem isr_status_run {s : State} {v : Word} {rest : List Word} (hi : s.inputs = [])
    (hf : s.fsm = .isr) (hp : s.pos = .isrClear) (ho : s.controller = .oracle)
    (ha : s.answers = v :: rest) :
    ∃ u, BusFrame s u ∧ u.answers = rest ∧
      u.trace = s.trace ++ [.clearBits .ctrl s.config.mbEn, .read .status v] ∧
      runSteps 2 s = .next (u.afterIsrStatus v) := by
  have hclear : BusFrame s { s.busClear .ctrl s.config.mbEn with pos := .isrStatus } :=
    (busClear_frame s .ctrl s.config.mbEn).trans (.pos _ _)
  obtain ⟨hv, hread⟩ := oracle_read
    (s := { s.busClear .ctrl s.config.mbEn with pos := .isrStatus }) (hclear.oracle ho) ha .status
  refine ⟨_, hclear.trans (busRead_frame _ .status .isrStatus), by rw [hread], ?_, ?_⟩
  · rw [hread]
    simp
  · have hsecond := procStep_isrStatus
      (s := { s.busClear .ctrl s.config.mbEn with pos := .isrStatus }) rfl
    rw [hv] at hsecond
    exact runSteps_two hi (.inr hf) (procStep_isrClear hp) rfl rfl hsecond

/-- Settles O41: the status read moves to the abort, whose two steps are those of every async end. -/
theorem interruptErrorAborts : Obligations.InterruptErrorAborts := by
  intro s v rest hinv hi hf hp ho ha hv
  obtain ⟨u, hframe, hans, htrace, hsteps⟩ := isr_status_run hi hf hp ho ha
  have hcs : s.csState = .asserted := by rw [hinv.cs, hf, hp]; rfl
  rw [afterIsrStatus_error (by rw [hframe.config]; exact hv)] at hsteps
  have hend := runSteps_endAsync (s := { u with pos := .abortAsyncCs }) (hframe.no_input hi)
    (hframe.fsm.trans hf) (hframe.csState.trans hcs) (procStep_abortAsyncCs rfl)
    fun _ => procStep_abortAsyncEmit
  refine ⟨_, (runSteps_add 2 hsteps).trans hend, rfl, rfl, rfl, rfl, hans, ?_⟩
  simp only [htrace, hframe.config, hframe.cbHandle, hframe.cbUdata, hframe.ctx, List.append_assoc]
  rfl

/-- An interrupt whose status shows no error reads the chunk's slots and completes the chunk. -/
theorem isr_good_run {s : State} {v : Word} {ws rest : List Word} (hinv : s.Inv)
    (hi : s.inputs = []) (hf : s.fsm = .isr) (hp : s.pos = .isrClear) (ho : s.controller = .oracle)
    (ha : s.answers = v :: ws ++ rest) (hv : statusErr s.config v = false)
    (hlen : ws.length = readbackCount s.config s.chunk) :
    ∃ n u, runSteps n s = .next (u.withBytes ws).awaitedDone ∧ BusFrame s u ∧ u.answers = rest ∧
      u.trace = s.trace ++ [.clearBits .ctrl s.config.mbEn, .read .status v] ++
        readbackEvents s.chunk 0 ws := by
  have hb := busy_of_not_idle hinv (by rw [hf]; decide)
  obtain ⟨u, hframe, hans, htrace, hsteps⟩ := isr_status_run hi hf hp ho ha
  rw [afterIsrStatus_ok (by rw [hframe.config]; exact hv)] at hsteps
  have hchunk := hframe.chunk
  obtain ⟨n, ws', t, hrun, hlen', hread, hanswered, htrace'⟩ := afterOk_run (hframe.no_input hi)
    (hframe.running (.inr hf)) (by rw [hframe.config, hchunk]; exact chunk_inDomain hinv hb)
  rw [hframe.config, hchunk] at hlen'
  obtain ⟨rfl, hrest⟩ := hanswered.eq_of_append (hframe.oracle ho) hans (hlen.trans hlen'.symm)
  have hall := hframe.trans hread
  refine ⟨2 + n, t, ?_, hall, hrest, by rw [htrace', htrace, hchunk]⟩
  rw [runSteps_add n hsteps, hrun, kickDone_isr (s := t.withBytes ws') (hall.fsm.trans hf)]

/-- In the interrupt procedure `completed_count` is `ci` (R241). -/
theorem State.Inv.completedCount_of_isr {s : State} (h : s.Inv) (hf : s.fsm = .isr)
    (hp : s.pos = .isrClear) : s.completedCount = s.ci := by
  have hk : InKick s := ⟨h, .inr hf, by rw [hp]; rfl⟩
  rw [hk.counters.2, h.async_of_isr hf, if_pos rfl]

/-- Settles O40: the completed chunk is the last, and the request ends. -/
theorem lastInterruptFinishes : Obligations.LastInterruptFinishes := by
  intro s v ws rest hinv hi hf hp ho ha hv hlen hlast
  obtain ⟨n, u, hsteps, hframe, -, htrace⟩ := isr_good_run hinv hi hf hp ho ha hv hlen
  have hcs : s.csState = .asserted := by rw [hinv.cs, hf, hp]; rfl
  have hk : InKick s := ⟨hinv, .inr hf, by rw [hp]; rfl⟩
  have htotal : u.completedCount + 1 = u.totalChunks := by
    rw [hframe.completedCount, hframe.totalChunks, hinv.completedCount_of_isr hf hp]
    exact BitVec.eq_of_toNat_eq ((counter_succ_toNat hk.counters.1).trans hlast)
  rw [awaitedDone_last (s := u.withBytes ws) htotal] at hsteps
  have hend := runSteps_endAsync (s := { u.withBytes ws with
      completedCount := (u.withBytes ws).completedCount + 1, pos := .finishAsyncCs })
    (hframe.no_input hi) (hframe.fsm.trans hf) (hframe.csState.trans hcs)
    (procStep_finishAsyncCs rfl) fun _ => procStep_finishAsyncEmit
  refine ⟨n + 2, _, (runSteps_add 2 hsteps).trans hend, rfl, rfl, rfl, rfl, hframe.ci, ?_⟩
  simp only [State.withBytes, htrace, hframe.config, hframe.cbHandle, hframe.cbUdata, hframe.ctx,
    hframe.chunk]
  rfl

/-- Settles O39: the completed chunk is not the last, and the next one is programmed. -/
theorem interruptProgramsNextChunk : Obligations.InterruptProgramsNextChunk := by
  intro s v ws rest hinv hi hf hp ho ha hv hlen hmore
  obtain ⟨n, u, hsteps, hframe, hans, htrace⟩ := isr_good_run hinv hi hf hp ho ha hv hlen
  have hb := busy_of_not_idle hinv (by rw [hf]; decide)
  have hcs : s.csState = .asserted := by rw [hinv.cs, hf, hp]; rfl
  have hk : InKick s := ⟨hinv, .inr hf, by rw [hp]; rfl⟩
  have hsucc := counter_succ_toNat hk.counters.1
  have htotal : u.completedCount + 1 ≠ u.totalChunks := by
    rw [hframe.completedCount, hframe.totalChunks, hinv.completedCount_of_isr hf hp]
    intro heq
    rw [heq] at hsucc
    omega
  rw [awaitedDone_more (s := u.withBytes ws) htotal] at hsteps
  obtain ⟨t, hprogram, htr, hctx, hci, -, hanst, hcst, hcount, hwait, -, -⟩ :=
    programEmitsInOrder { u.withBytes ws with
      completedCount := (u.withBytes ws).completedCount + 1
      ci := (u.withBytes ws).ci + 1
      pos := .wOpcode } (hframe.no_input hi) (.inr (hframe.fsm.trans hf)) rfl
    (chunkOf_inDomain _ (show u.ctx.cmd.length ≤ 4 by
      rw [hframe.ctx]; exact (hinv.request hb).context.cmd_le) _)
  obtain ⟨hwaiting, -⟩ := hwait (hframe.fsm.trans hf)
  refine ⟨n + _, t, (runSteps_add _ hsteps).trans hprogram, hwaiting, hcst.trans (hframe.csState.trans hcs),
    hci.trans (congrArg (· + 1) hframe.ci), hcount.trans (congrArg (· + 1) hframe.completedCount),
    hanst.trans hans, ?_, ?_⟩
  · rw [hctx]
    simp only [State.withBytes, hframe.config, hframe.ctx, hframe.chunk]
  · rw [htr]
    simp only [State.withBytes, State.chunk, chunkOf_rxBuf, htrace, hframe.config, hframe.ctx,
      hframe.ci, hsucc]

end Sys2Proof.Machine

/-! Whole polling requests (41_engine_common.md sections 3 and 4): a kick under given answers, the loop over
the kicks answered well, and the two ends. -/

namespace Sys2Proof.Machine

/-! ### A polled kick up to its classification (R156, R161) -/

/-- In a polling request the whole of `program` is a run of writes that ends at a poll from count 0. -/
theorem program_run_polling {s : State} (hi : s.inputs = []) (hf : s.fsm = .run)
    (hsync : s.ctx.reqOp.isAsync = false) (hp : s.pos = .wOpcode)
    (hc : ChunkInDomain s.config s.chunk) :
    ∃ t, WriteRun (4 + s.chunk.stageM) s t (programEvents s.config s.ctx.ord s.chunk) ∧
      t.pos = .poll ∧ t.pollCnt = 0 := by
  obtain ⟨u, es, hrun, hpos, hevents⟩ := program_run hi (.inl hf) hp hc
  have hframe := hrun.frame
  have huf : u.fsm = .run := hframe.fsm.trans hf
  have husync : u.ctx.reqOp.isAsync = false := by rw [hframe.ctx]; exact hsync
  have hstart : procStep u = .next { u.busSet .ctrl s.config.start with
      pollCnt := 0, pos := .poll } := by
    rw [procStep_sStart hpos, stepStart, hframe.config,
      afterStart_polling (s := u.busSet .ctrl s.config.start) huf husync]
  have hkick := WriteRun.single (hframe.no_input hi) (.inl huf) hstart
    { busSet_frame u .ctrl s.config.start with } rfl rfl
  have hall := hrun.trans hkick
  rw [← hevents, show 3 + s.chunk.stageM + 1 = 4 + s.chunk.stageM by omega] at hall
  exact ⟨_, hall, rfl, rfl⟩

/-- How the listed answers end a poll that has made `n` reads: a value with BUSY clear within the budget,
or a budget of BUSY answers (R161). -/
def EndsPoll (g : Config) (n : Nat) (bs : List Word) (fin : Option Word) : Prop :=
  (∀ b ∈ bs, statusBusy g b = true) ∧
    ((∃ v, fin = some v ∧ statusBusy g v = false ∧ n + bs.length < g.pollBudget) ∨
      (fin = none ∧ bs ≠ [] ∧ n + bs.length = g.pollBudget))

/-- Under the oracle a poll whose answers end it reads exactly them. -/
theorem poll_reads {bs : List Word} {fin : Option Word} {rest : List Word} {s : State}
    (hi : s.inputs = []) (hf : s.fsm = .run) (hp : s.pos = .poll) (ho : s.controller = .oracle)
    (ha : s.answers = bs ++ fin.toList ++ rest) (hends : EndsPoll s.config s.pollCnt.toNat bs fin) :
    ∃ t, PollRun s t (bs ++ fin.toList) ∧ t.pos = .cMode fin := by
  induction bs generalizing s with
  | nil =>
    obtain ⟨-, ⟨v, rfl, hclear, hcnt⟩ | ⟨-, hne, -⟩⟩ := hends
    · obtain ⟨hv, -⟩ := oracle_read ho ha .status
      have hread := PollRun.single hi hf hp hcnt
      have hpos := stepPoll_pos_of_clear (s := s) (by rw [hv]; exact hclear)
      rw [hv] at hread hpos
      exact ⟨_, hread, hpos⟩
    · exact absurd rfl hne
  | cons b bs ih =>
    obtain ⟨hbusy, hfin⟩ := hends
    obtain ⟨hb, hbs⟩ := List.forall_mem_cons.mp hbusy
    rw [List.length_cons] at hfin
    have hcnt : s.pollCnt.toNat < s.config.pollBudget := by
      rcases hfin with ⟨v, -, -, hlt⟩ | ⟨-, -, heq⟩ <;> omega
    obtain ⟨hv, hread⟩ := oracle_read ho ha .status
    have hone := PollRun.single hi hf hp hcnt
    have hpos := stepPoll_pos_of_busy hcnt (by rw [hv]; exact hb)
    rw [hv] at hone
    have hcount : (stepPoll s).pollCnt.toNat = s.pollCnt.toNat + 1 := hone.count
    by_cases hlast : s.config.pollBudget ≤ s.pollCnt.toNat + 1
    · rw [if_pos hlast] at hpos
      obtain ⟨v, -, -, hlt⟩ | ⟨rfl, -, heq⟩ := hfin
      · omega
      · obtain rfl : bs = [] := List.length_eq_zero_iff.mp (by omega)
        exact ⟨_, hone, hpos⟩
    · rw [if_neg hlast] at hpos
      have hans : (stepPoll s).answers = bs ++ fin.toList ++ rest := by
        rw [stepPoll, State.afterPoll_answers, hread]
        rfl
      obtain ⟨t, hrest, hend⟩ := ih (s := stepPoll s) hi hf hpos ho hans ⟨hbs, by
        rw [hcount]
        rcases hfin with ⟨v, hsome, hclear, hlt⟩ | ⟨hnone, -, heq⟩
        · exact .inl ⟨v, hsome, hclear, show _ < s.config.pollBudget by omega⟩
        · refine .inr ⟨hnone, ?_, show _ = s.config.pollBudget by omega⟩
          rintro rfl
          rw [List.length_nil] at heq
          omega⟩
      exact ⟨t, hone.cons hrest, hend⟩

/-- Answers of a kick end its poll, good or bad. -/
theorem KickAnswers.good.endsPoll {g : Config} {c : Chunk} {a : KickAnswers} (h : a.good g c) :
    EndsPoll g 0 a.busyReads a.final := by
  obtain ⟨hbusy, hlt, ⟨v, hfin, hclear, -⟩, -⟩ := h
  exact ⟨hbusy, .inl ⟨v, hfin, hclear, by omega⟩⟩

theorem KickAnswers.bad.endsPoll {g : Config} {a : KickAnswers} (h : a.bad g) :
    EndsPoll g 0 a.busyReads a.final := by
  obtain ⟨hbusy, -, ⟨hfin, hlen⟩ | ⟨hlt, v, hfin, hclear, -⟩⟩ := h
  · have hbudget := (pollBudget_bounds g).1
    refine ⟨hbusy, .inr ⟨hfin, fun hnil => ?_, by omega⟩⟩
    rw [hnil, List.length_nil] at hlen
    omega
  · exact ⟨hbusy, .inl ⟨v, hfin, hclear, by omega⟩⟩

/-- A polling request about to program a chunk, under the oracle. -/
structure AtChunk (s : State) : Prop where
  no_input : s.inputs = []
  run : s.fsm = .run
  sync : s.ctx.reqOp.isAsync = false
  pos : s.pos = .wOpcode
  oracle : s.controller = .oracle
  cmd_le : s.ctx.cmd.length ≤ 4

theorem AtChunk.inDomain {s : State} (h : AtChunk s) : ChunkInDomain s.config s.chunk :=
  chunkOf_inDomain _ h.cmd_le _

/-- The kick is programmed, polled under its answers and cleared; then it is classified. -/
theorem AtChunk.kick {s : State} (h : AtChunk s) {a : KickAnswers} {rest : List Word}
    (ha : s.answers = a.statusReads ++ rest) (hends : EndsPoll s.config 0 a.busyReads a.final) :
    ∃ n u, runSteps n s = .next (u.afterClear a.final) ∧ BusFrame s u ∧ u.answers = rest ∧
      u.trace = s.trace ++ (programEvents s.config s.ctx.ord s.chunk ++
        statusEvents a.statusReads ++ [.clearBits .ctrl s.chunk.ctrlMask]) := by
  obtain ⟨t, hprogram, hpos, hcnt⟩ :=
    program_run_polling h.no_input h.run h.sync h.pos h.inDomain
  have htf := hprogram.frame
  have hans : t.answers = a.busyReads ++ a.final.toList ++ rest := hprogram.answers.trans ha
  obtain ⟨u, hpoll, hend⟩ := poll_reads (htf.no_input h.no_input) (htf.fsm.trans h.run) hpos
    (htf.oracle h.oracle) hans (by rw [htf.config, hcnt]; exact hends)
  have hrun := hprogram.toBusRun.trans hpoll.toBusRun
  have hframe := hrun.frame
  obtain ⟨-, hrest⟩ := hrun.answered.eq_of_append h.oracle ha rfl
  have hstep : step u = .next (stepClear u a.final) :=
    (step_of_running (hframe.no_input h.no_input) (.inl (hframe.fsm.trans h.run))).trans
      (procStep_cMode hend)
  refine ⟨_, u.busClear .ctrl u.chunk.ctrlMask, (runSteps_add 1 hrun.steps).trans (runSteps_one hstep),
    hframe.trans (busClear_frame u .ctrl _), hrest, ?_⟩
  rw [State.busClear_trace, hrun.trace, hframe.chunk, List.append_assoc]
  rfl

/-- A kick answered well reads its slots and is counted. -/
theorem AtChunk.good {s : State} (h : AtChunk s) {a : KickAnswers} {rest : List Word}
    (ha : s.answers = a.all ++ rest) (hgood : a.good s.config s.chunk) :
    ∃ n u, runSteps n s = .next (u.withBytes a.words).polledDone ∧ BusFrame s u ∧
      u.answers = rest ∧ u.trace = s.trace ++ kickEvents s.config s.ctx.ord s.chunk a := by
  rw [KickAnswers.all, List.append_assoc] at ha
  obtain ⟨n, u, hsteps, hframe, hans, htrace⟩ := h.kick ha hgood.endsPoll
  obtain ⟨-, -, ⟨v, hfin, -, hv⟩, hlen⟩ := hgood
  rw [hfin, afterClear_ok (by rw [hframe.config]; exact hv)] at hsteps
  have hchunk := hframe.chunk
  obtain ⟨m, ws, t, hrun, hlen', hread, hanswered, htrace'⟩ := afterOk_run
    (hframe.no_input h.no_input) (.inl (hframe.fsm.trans h.run))
    (by rw [hframe.config, hchunk]; exact h.inDomain)
  rw [hframe.config, hchunk] at hlen'
  obtain ⟨rfl, hrest⟩ := hanswered.eq_of_append (hframe.oracle h.oracle) hans
    (hlen.trans hlen'.symm)
  have hall := hframe.trans hread
  refine ⟨n + m, t, ?_, hall, hrest, ?_⟩
  · rw [runSteps_add m hsteps, hrun, kickDone_run (s := t.withBytes a.words)
      (by rw [show (t.withBytes a.words).fsm = .run from hall.fsm.trans h.run]; decide)]
  · rw [htrace', htrace, hchunk, List.append_assoc, kickEvents]

/-! ### The loop over the kicks (R165) -/

/-- A run over `n` chunks of a request from `s` to `t` that emits `es` and leaves `buf` in `rx_buf`. -/
structure ChunksRun (n : Nat) (s t : State) (buf : List (Option Byte)) (es : List Event) : Prop where
  steps : ∃ m, runSteps m s = .next t
  no_input : t.inputs = []
  fsm : t.fsm = s.fsm
  config : t.config = s.config
  csState : t.csState = s.csState
  totalChunks : t.totalChunks = s.totalChunks
  oracle : t.controller = .oracle
  ctx : t.ctx = { s.ctx with rxBuf := buf }
  ci : t.ci.toNat = s.ci.toNat + n
  pos : t.pos = if t.ci.toNat < t.totalChunks.toNat then .wOpcode else .finishCs
  trace : t.trace = s.trace ++ es

/-- What the loop says of a request does not depend on the receive buffer it starts with. -/
theorem loopEvents_rxBuf (g : Config) (x : Context) (b : List (Option Byte)) (as : List KickAnswers) :
    ∀ i, loopEvents g { x with rxBuf := b } i as = loopEvents g x i as := by
  induction as with
  | nil => exact fun _ => rfl
  | cons a as ih => exact fun i => congrArg _ (ih (i + 1))

theorem loopBuf_rxBuf (g : Config) (x : Context) (b : List (Option Byte)) (as : List KickAnswers) :
    ∀ i buf, loopBuf g { x with rxBuf := b } i as buf = loopBuf g x i as buf := by
  induction as with
  | nil => exact fun _ _ => rfl
  | cons a as ih => exact fun i buf => ih (i + 1) _

theorem allGood_rxBuf (g : Config) (x : Context) (b : List (Option Byte)) (as : List KickAnswers) :
    ∀ i, allGood g x i as → allGood g { x with rxBuf := b } i as := by
  induction as with
  | nil => exact fun _ h => h
  | cons a as ih => exact fun i h => ⟨h.1, ih (i + 1) h.2⟩

/-- One chunk answered well, in the terms of the loop. -/
theorem AtChunk.one {s : State} (h : AtChunk s) (hci : s.ci.toNat < s.totalChunks.toNat)
    {a : KickAnswers} {rest : List Word} (ha : s.answers = a.all ++ rest)
    (hgood : a.good s.config s.chunk) :
    ∃ t, ChunksRun 1 s t (readbackBuf s.config s.ctx.ord s.chunk a.words s.ctx.rxBuf)
      (kickEvents s.config s.ctx.ord s.chunk a) ∧ t.answers = rest := by
  obtain ⟨n, u, hsteps, hframe, hans, htrace⟩ := h.good ha hgood
  have hsucc : (u.ci + 1).toNat = s.ci.toNat + 1 := by rw [hframe.ci]; exact counter_succ_toNat hci
  exact ⟨_, {
    steps := ⟨n, hsteps⟩
    no_input := hframe.no_input h.no_input
    fsm := hframe.fsm
    config := hframe.config
    csState := hframe.csState
    totalChunks := hframe.totalChunks
    oracle := hframe.oracle h.oracle
    ctx := by
      simp only [State.polledDone_ctx, State.withBytes, hframe.config, hframe.ctx, hframe.chunk]
    ci := hsucc
    pos := rfl
    trace := htrace }, hans⟩

/-- A whole loop over chunks answered well. -/
theorem AtChunk.loop {as : List KickAnswers} {s : State} (h : AtChunk s)
    (hci : s.ci.toNat < s.totalChunks.toNat) (hle : s.ci.toNat + as.length ≤ s.totalChunks.toNat)
    {rest : List Word} (ha : s.answers = as.flatMap KickAnswers.all ++ rest)
    (hgood : allGood s.config s.ctx s.ci.toNat as) :
    ∃ t, ChunksRun as.length s t (loopBuf s.config s.ctx s.ci.toNat as s.ctx.rxBuf)
      (loopEvents s.config s.ctx s.ci.toNat as) ∧ t.answers = rest := by
  induction as generalizing s with
  | nil =>
    exact ⟨s, ⟨⟨0, rfl⟩, h.no_input, rfl, rfl, rfl, rfl, h.oracle, rfl, rfl,
      by rw [if_pos hci]; exact h.pos, (List.append_nil _).symm⟩, ha⟩
  | cons a as ih =>
    rw [List.flatMap_cons, List.append_assoc] at ha
    rw [List.length_cons] at hle
    obtain ⟨hfirst, hothers⟩ := hgood
    obtain ⟨u, hone, hans⟩ := h.one hci ha hfirst
    obtain ⟨m, hsteps⟩ := hone.steps
    have hctx := hone.ctx
    by_cases hmore : u.ci.toNat < u.totalChunks.toNat
    · have hu : AtChunk u := ⟨hone.no_input, hone.fsm.trans h.run, by rw [hctx]; exact h.sync,
        by rw [hone.pos, if_pos hmore], hone.oracle, by rw [hctx]; exact h.cmd_le⟩
      obtain ⟨t, hrest, hanst⟩ := ih hu hmore
        (by rw [hone.ci, hone.totalChunks]; omega) hans
        (by rw [hone.config, hctx, hone.ci]; exact allGood_rxBuf _ _ _ _ _ hothers)
      obtain ⟨k, hsteps'⟩ := hrest.steps
      refine ⟨t, ⟨⟨m + k, (runSteps_add k hsteps).trans hsteps'⟩, hrest.no_input,
        hrest.fsm.trans hone.fsm, hrest.config.trans hone.config,
        hrest.csState.trans hone.csState, hrest.totalChunks.trans hone.totalChunks, hrest.oracle,
        ?_, ?_, hrest.pos, ?_⟩, hanst⟩
      · rw [hrest.ctx, hctx, hone.config, hone.ci, loopBuf_rxBuf]
        rfl
      · rw [hrest.ci, hone.ci, List.length_cons]
        omega
      · rw [hrest.trace, hone.trace, hone.config, hctx, hone.ci, loopEvents_rxBuf, List.append_assoc]
        rfl
    · have hlast := hone.ci
      rw [hone.totalChunks] at hmore
      obtain rfl : as = [] := List.length_eq_zero_iff.mp (by omega)
      refine ⟨u, ?_, hans⟩
      rw [loopEvents, loopEvents, List.append_nil]
      exact hone

end Sys2Proof.Machine

/-! Polling requests from their first step to their response (41_engine_common.md sections 3 to 5): the two runs
whose answers are known, and the bound that ends every run. -/

namespace Sys2Proof.Machine

/-! ### The loop from the start of a request (R165) -/

/-- The state in which a request whose first step has asserted chip-select programs its first chunk. -/
def State.atFirstChunk (s : State) : State :=
  { s with
    csState := .asserted
    trace := s.trace ++ [.cs s.config.csAssertLevel]
    pos := .wOpcode }

/-- From its start a request whose first kicks are answered well runs through them. -/
theorem firstChunks_run {s : State} {as : List KickAnswers} {rest : List Word} (hinv : s.Inv)
    (hi : s.inputs = []) (hp : s.pos = .csAssert) (hsync : s.ctx.reqOp.isAsync = false)
    (ho : s.controller = .oracle) (hle : as.length ≤ s.totalChunks.toNat)
    (hgood : allGood s.config s.ctx 0 as)
    (ha : s.answers = as.flatMap KickAnswers.all ++ rest) :
    ∃ n t, runSteps n s = .next t ∧
      ChunksRun as.length s.atFirstChunk t (loopBuf s.config s.ctx 0 as s.ctx.rxBuf)
        (loopEvents s.config s.ctx 0 as) ∧
      t.ci.toNat = as.length ∧ t.answers = rest := by
  have hf := hinv.run_of_csAssert hp
  have hrequest := hinv.request (busy_of_not_idle hinv (by rw [hf]; decide))
  have hzero : s.ci.toNat = 0 := by rw [hrequest.first hp]; rfl
  have hcounters := hrequest.counters
  rw [hp] at hcounters
  have hstart : AtChunk s.atFirstChunk := ⟨hi, hf, hsync, rfl, ho, hrequest.context.cmd_le⟩
  obtain ⟨t, hrun, hrest⟩ := hstart.loop (as := as) (rest := rest) hcounters.1
    (show s.ci.toNat + as.length ≤ s.totalChunks.toNat by omega) ha
    (show allGood s.config s.ctx s.ci.toNat as by rw [hzero]; exact hgood)
  rw [show s.atFirstChunk.ci.toNat = 0 from hzero] at hrun
  obtain ⟨m, hsteps⟩ := hrun.steps
  have hcount : t.ci.toNat = s.ci.toNat + as.length := hrun.ci
  exact ⟨m + 1, t, (runSteps_cons (step_csAssert hinv hi hp) m).trans hsteps, hrun,
    by rw [hcount, hzero, Nat.zero_add], hrest⟩

/-- Settles O51: all chunks are answered well, so the loop ends at `finish_poll`. -/
theorem polledRequestRunsToOk : Obligations.PolledRequestRunsToOk := by
  intro s as rest hinv hi hp hsync ho hlen hgood ha
  obtain ⟨n, t, hsteps, hrun, hcount, hrest⟩ :=
    firstChunks_run hinv hi hp hsync ho (by omega) hgood ha
  have htotal : t.totalChunks = s.totalChunks := hrun.totalChunks
  have hpos : t.pos = .finishCs := by rw [hrun.pos, hcount, htotal, if_neg (by omega)]
  have hend := runSteps_endPoll (st := .ok) hrun.no_input
    (hrun.fsm.trans (hinv.run_of_csAssert hp)) hrun.csState (procStep_finishCs hpos)
    fun _ => procStep_finishRespond
  refine ⟨n + 2, _, (runSteps_add 2 hsteps).trans hend, rfl, rfl, rfl,
    BitVec.eq_of_toNat_eq (hcount.trans hlen), hrest, ?_⟩
  simp only [hrun.trace, hrun.config, hrun.ctx]
  rfl

/-! ### The abort at the first failing kick (R163, R168) -/

/-- The events of a last chunk stand after those of the chunks before it. -/
theorem loopEvents_concat (g : Config) (x : Context) (a : KickAnswers) (as : List KickAnswers) :
    ∀ i, loopEvents g x i (as ++ [a]) =
      loopEvents g x i as ++ kickEvents g x.ord (chunkOf g x (i + as.length)) a := by
  induction as with
  | nil => intro i; simp [loopEvents]
  | cons b as ih =>
    intro i
    simp only [List.cons_append, loopEvents, ih, List.append_assoc, List.length_cons]
    rw [show i + 1 + as.length = i + (as.length + 1) by omega]

/-- A failed kick goes to the abort with its status. -/
theorem KickAnswers.bad.afterClear {s : State} {a : KickAnswers} (h : a.bad s.config) :
    s.afterClear a.final = { s with pos := .abortCs (classify s.config a.final) } := by
  obtain ⟨-, -, ⟨hfin, -⟩ | ⟨-, v, hfin, -, herr⟩⟩ := h
  · rw [hfin, afterClear_timeout]
    rfl
  · rw [hfin, afterClear_error herr, classify, if_pos herr]

/-- A kick answered badly is the last: its mode bits are cleared, and the request aborts. -/
theorem AtChunk.abort {s : State} (h : AtChunk s) (hcs : s.csState = .asserted) {a : KickAnswers}
    {rest : List Word} (ha : s.answers = a.all ++ rest) (hbad : a.bad s.config) :
    ∃ n t, runSteps n s = .next t ∧ t.quiescent ∧ t.busy = false ∧ t.csState = .deasserted ∧
      t.ci = s.ci ∧ t.answers = rest ∧
      t.trace = s.trace ++ kickEvents s.config s.ctx.ord s.chunk a ++
        [.cs (!s.config.csAssertLevel),
         .respond (classify s.config a.final) (outOf s.ctx s.ctx.rxBuf)] := by
  have hwords : a.words = [] := hbad.2.1
  rw [KickAnswers.all, hwords, List.append_nil] at ha
  obtain ⟨n, u, hsteps, hframe, hans, htrace⟩ := h.kick ha hbad.endsPoll
  rw [KickAnswers.bad.afterClear (by rw [hframe.config]; exact hbad)] at hsteps
  have hend := runSteps_endPoll
    (s := { u with pos := .abortCs (classify u.config a.final) }) (hframe.no_input h.no_input)
    (hframe.fsm.trans h.run) (hframe.csState.trans hcs) (procStep_abortCs rfl)
    fun _ => procStep_abortRespond
  refine ⟨n + 2, _, (runSteps_add 2 hsteps).trans hend, rfl, rfl, rfl, hframe.ci, hans, ?_⟩
  simp only [htrace, hframe.config, hframe.ctx, kickEvents, hwords, readbackEvents,
    List.append_assoc, List.append_nil]

/-- Settles O52: the loop runs through the good kicks, and the next kick aborts. -/
theorem polledRequestAbortsAtFailure : Obligations.PolledRequestAbortsAtFailure := by
  intro s as bad rest hinv hi hp hsync ho hlt hgood hbad ha
  rw [List.flatMap_append, List.append_assoc] at ha
  obtain ⟨n, t, hsteps, hrun, hcount, hrest⟩ :=
    firstChunks_run hinv hi hp hsync ho (by omega) hgood ha
  have hf := hinv.run_of_csAssert hp
  have hcmd := (hinv.request (busy_of_not_idle hinv (by rw [hf]; decide))).context.cmd_le
  have htotal : t.totalChunks = s.totalChunks := hrun.totalChunks
  have hconfig : t.config = s.config := hrun.config
  have hctx := hrun.ctx
  have hnext : AtChunk t := ⟨hrun.no_input, hrun.fsm.trans hf, by rw [hctx]; exact hsync,
    by rw [hrun.pos, hcount, htotal, if_pos hlt], hrun.oracle, by rw [hctx]; exact hcmd⟩
  obtain ⟨m, u, hsteps', hquiet, hbusy, hcs, hci, hans, htrace⟩ := hnext.abort hrun.csState
    (a := bad) (rest := rest) (by rw [hrest]; simp) (by rw [hconfig]; exact hbad)
  refine ⟨n + m, u, (runSteps_add m hsteps).trans hsteps', hquiet, hbusy, hcs,
    (congrArg BitVec.toNat hci).trans hcount, hans, ?_⟩
  rw [htrace, hrun.trace, hconfig, loopEvents_concat, State.chunk, hcount, hconfig, hctx,
    chunkOf_rxBuf, Nat.zero_add]
  simp only [State.atFirstChunk, List.append_assoc]
  rfl

/-! ### Every polling request ends (R162, R171) -/

/-- How many steps at most lie between a position of a polled chunk and the end of the chunk or of the
request, the next count of the loop apart. -/
def positionWork (g : Config) (cnt : Word) : Pos → Nat
  | .csAssert => g.pollBudget + 25
  | .wOpcode => g.pollBudget + 24
  | .wData j => g.pollBudget + (23 - j.val)
  | .wMblen => g.pollBudget + 15
  | .sMode => g.pollBudget + 14
  | .sStart => g.pollBudget + 13
  | .poll => g.pollBudget - cnt.toNat + 12
  | .cMode _ => 12
  | .readback j _ => 11 - j
  | .finishCs | .abortCs _ => 2
  | .none | .finishRespond | .abortRespond _ | .acceptRespond | .isrClear | .isrStatus
  | .finishAsyncCs | .finishAsyncEmit | .abortAsyncCs | .abortAsyncEmit => 1

/-- The work left at the position of a state. -/
def State.work (s : State) : Nat := positionWork s.config s.pollCnt s.pos

/-- A step that keeps a polling request running and comes nearer to its end: within the chunk, or by
counting it. -/
structure Progress (s t : State) : Prop where
  fsm : t.fsm = .run
  totalChunks : t.totalChunks = s.totalChunks
  less : (t.ci = s.ci ∧ t.work < s.work) ∨
    (t.ci.toNat = s.ci.toNat + 1 ∧ s.ci.toNat < s.totalChunks.toNat)

/-- A step that keeps the count of the loop makes progress where less work is left. -/
theorem Progress.of_work {s t : State} (hf : t.fsm = .run) (htotal : t.totalChunks = s.totalChunks)
    (hci : t.ci = s.ci) (hwork : t.work < s.work) : Progress s t :=
  ⟨hf, htotal, .inl ⟨hci, hwork⟩⟩

/-- The end of a good polled kick counts it. -/
theorem progress_kickDone {s u : State} (hf : u.fsm = .run) (hci : u.ci = s.ci)
    (htotal : u.totalChunks = s.totalChunks) (hlt : s.ci.toNat < s.totalChunks.toNat) :
    Progress s u.kickDone := by
  rw [kickDone_run (by rw [hf]; decide)]
  refine ⟨hf, htotal, .inr ⟨?_, hlt⟩⟩
  rw [← counter_succ_toNat hlt, ← hci]
  rfl

/-- The classification of a polled kick makes progress on every outcome. -/
theorem progress_afterClear {s u : State} (hf : u.fsm = .run) (hci : u.ci = s.ci)
    (htotal : u.totalChunks = s.totalChunks) (hlt : s.ci.toNat < s.totalChunks.toNat)
    (hwork : s.work = 12) (p : Option Word) : Progress s (u.afterClear p) := by
  unfold State.afterClear
  split
  · by_cases hrx : u.chunk.rxN = 0
    · rw [afterOk_done hrx]
      exact progress_kickDone hf hci htotal hlt
    · rw [afterOk_reads (Nat.pos_of_ne_zero hrx)]
      exact .of_work hf htotal hci (by rw [hwork]; exact Nat.lt_succ_self 11)
  · exact .of_work hf htotal hci (by rw [hwork]; exact (by decide : 2 < 12))

/-- The work left before the write of send slot `j`, or after the last one. -/
theorem positionWork_slotPos (g : Config) (cnt : Word) {c : Chunk} {j : Nat} (hm : c.stageM ≤ 8)
    (hj : j ≤ 8) : positionWork g cnt (slotPos c j) ≤ g.pollBudget + (23 - j) := by
  unfold slotPos
  split
  · have hval : (Fin.ofNat 8 j).val = j := Nat.mod_eq_of_lt (by omega)
    rw [positionWork, hval]
  · rw [positionWork]
    omega

/-- A slot read makes progress: to the next slot, or by counting the chunk. -/
theorem progress_readback {s t : State} {j : Nat} {w : List Word} (hf : s.fsm = .run)
    (hlt : s.ci.toNat < s.totalChunks.toNat) (hp : s.pos = .readback j w) (hj : j < 8)
    (hstep : stepReadback s j w = .next t) : Progress s t := by
  by_cases hmore : j + 1 < readbackCount s.config s.chunk
  · rw [stepReadback_more w hmore] at hstep
    cases hstep
    refine .of_work hf rfl rfl ?_
    rw [State.work, State.work, hp]
    exact Nat.sub_succ_lt_self 11 j (by omega)
  · cases hb : unpackSlots s.config (w ++ [s.readValue (s.readbackReg j)]) s.chunk.rxN s.ctx.ord with
    | none => rw [stepReadback_fault hmore hb] at hstep; cases hstep
    | some bytes =>
      rw [stepReadback_last hmore hb] at hstep
      cases hstep
      exact progress_kickDone (u := s.readBack j bytes) hf rfl rfl hlt

/-- A status read makes progress: one read less is left, or none. -/
theorem progress_stepPoll {s : State} (hf : s.fsm = .run) (hp : s.pos = .poll)
    (hcnt : s.pollCnt.toNat < s.config.pollBudget) : Progress s (stepPoll s) := by
  refine .of_work hf rfl rfl ?_
  have hsucc : (stepPoll s).pollCnt.toNat = s.pollCnt.toNat + 1 := pollCnt_succ hcnt
  have hconfig : (stepPoll s).config = s.config := rfl
  rw [State.work, State.work, hconfig, hp, stepPoll_pos]
  split_ifs <;> simp only [positionWork] <;> omega

/-- Every step of a running polling request makes progress, or is its response. -/
theorem polling_procStep {s t : State} (h : s.Inv) (hf : s.fsm = .run)
    (hsync : s.ctx.reqOp.isAsync = false) (hstep : procStep s = .next t) :
    Progress s t ∨ ∃ st, t = s.endPoll st ∧ s.csState = .deasserted ∧
      (st = .ok ∨ st = .hardwareTimeout ∨ st = .unclassifiedError) := by
  have hb : s.busy = true := busy_of_not_idle h (by rw [hf]; decide)
  have hchunk := chunk_inDomain h hb
  have hfits := h.fits
  have hcounters := (h.request hb).counters
  have hlocals := h.locals
  have hcs := h.cs
  rw [hf, hsync] at hfits
  rw [hf] at hcs
  have hwork : s.work = positionWork s.config s.pollCnt s.pos := rfl
  cases hp : s.pos <;> rw [hp] at hfits hcounters hlocals hcs hwork
  case none | acceptRespond | isrClear | isrStatus | finishAsyncCs | finishAsyncEmit | abortAsyncCs
     | abortAsyncEmit => cases hfits
  case csAssert =>
    rw [procStep_csAssert hp] at hstep; cases hstep
    exact .inl (.of_work hf rfl rfl (by rw [hwork]; exact Nat.lt_succ_self _))
  case wOpcode =>
    rw [procStep_wOpcode hp, stepOpcode_next hchunk.op_le] at hstep; cases hstep
    refine .inl (.of_work hf rfl rfl ?_)
    rw [hwork]
    exact Nat.lt_succ_of_le (positionWork_slotPos _ _ hchunk.stage_le (Nat.zero_le 8))
  case wData j =>
    obtain ⟨w, hw⟩ := slotWord_some hchunk hlocals s.ctx.ord
    have hnext := stepData_next j.isLt hw
    rw [Fin.ofNat_val_eq_self] at hnext
    rw [procStep_wData hp, hnext] at hstep; cases hstep
    refine .inl (.of_work hf rfl rfl ?_)
    rw [hwork]
    have hless : s.config.pollBudget + (23 - (j.val + 1)) <
        positionWork s.config s.pollCnt (.wData j) := by
      simp only [positionWork]
      omega
    exact Nat.lt_of_le_of_lt (positionWork_slotPos _ _ hchunk.stage_le j.isLt) hless
  case wMblen =>
    rw [procStep_wMblen hp] at hstep; cases hstep
    exact .inl (.of_work hf rfl rfl (by rw [hwork]; exact Nat.lt_succ_self _))
  case sMode =>
    rw [procStep_sMode hp] at hstep; cases hstep
    exact .inl (.of_work hf rfl rfl (by rw [hwork]; exact Nat.lt_succ_self _))
  case sStart =>
    rw [procStep_sStart hp, stepStart,
      afterStart_polling (s := s.busSet .ctrl s.config.start) hf hsync] at hstep
    cases hstep
    exact .inl (.of_work hf rfl rfl (by rw [hwork]; exact Nat.lt_succ_self _))
  case poll =>
    rw [procStep_poll hp] at hstep; cases hstep
    exact .inl (progress_stepPoll hf hp hlocals)
  case cMode p =>
    rw [procStep_cMode hp] at hstep; cases hstep
    exact .inl (progress_afterClear (s := s) (u := s.busClear .ctrl s.chunk.ctrlMask) hf rfl rfl
      hcounters.1 hwork p)
  case readback j w =>
    rw [procStep_readback hp] at hstep
    have hslots := hchunk.rx_slots
    exact .inl (progress_readback hf hcounters.1 hp (by have := hlocals.2; omega) hstep)
  case finishCs =>
    rw [procStep_finishCs hp] at hstep; cases hstep
    exact .inl (.of_work hf rfl rfl (by rw [hwork]; exact Nat.lt_succ_self _))
  case abortCs st =>
    rw [procStep_abortCs hp] at hstep; cases hstep
    exact .inl (.of_work hf rfl rfl (by rw [hwork]; exact Nat.lt_succ_self _))
  case finishRespond =>
    rw [procStep_finishRespond hp] at hstep; cases hstep
    exact .inr ⟨_, rfl, hcs, .inl rfl⟩
  case abortRespond st =>
    rw [procStep_abortRespond hp] at hstep; cases hstep
    exact .inr ⟨_, rfl, hcs, .inr hlocals⟩

/-- A step of a procedure takes no input. -/
theorem procStep_inputs {s t : State} (h : procStep s = .next t) : t.inputs = s.inputs := by
  obtain ⟨u, hop, hmove⟩ := procStep_acts h
  rw [hmove.inputs]
  cases hop <;> rfl

/-- A polling request comes to a state whose next step is its response, with the operands it had. -/
theorem polling_ends (s : State) (h : s.Inv) (hi : s.inputs = []) (hf : s.fsm = .run)
    (hsync : s.ctx.reqOp.isAsync = false) :
    ∃ (n : Nat) (u : State) (st : Status), runSteps n s = .next (u.endPoll st) ∧ u.Inv ∧ u.busy = true ∧
      u.csState = .deasserted ∧ u.ctx = { s.ctx with rxBuf := u.ctx.rxBuf } ∧
      (st = .ok ∨ st = .hardwareTimeout ∨ st = .unclassifiedError) := by
  have hb : s.busy = true := busy_of_not_idle h (by rw [hf]; decide)
  obtain ⟨t, hproc, htinv⟩ := procStep_inv h (.inl hf)
  have hstep : step s = .next t := (step_of_running hi (.inl hf)).trans hproc
  rcases polling_procStep h hf hsync hproc with hprogress | ⟨st, rfl, hcs, hst⟩
  · have hctx := (step_operands hstep (by simp [noReset, hi]) hb).ctx
    have hti : t.inputs = [] := (procStep_inputs hproc).trans hi
    obtain ⟨n, u, st, hrun, huinv, hub, hucs, huctx, hst⟩ :=
      polling_ends t htinv hti hprogress.fsm (by rw [hctx]; exact hsync)
    exact ⟨n + 1, u, st, (runSteps_cons hstep n).trans hrun, huinv, hub, hucs,
      by rw [huctx, hctx], hst⟩
  · exact ⟨1, s, st, runSteps_one hstep, h, hb, hcs, rfl, hst⟩
termination_by (s.totalChunks.toNat - s.ci.toNat, s.work)
decreasing_by
  have htotal := hprogress.totalChunks
  rcases hprogress.less with ⟨hci, hless⟩ | ⟨hci, hlt⟩
  · rw [htotal, hci]
    exact .right _ hless
  · rw [htotal, hci]
    exact .left _ _ (by omega)

/-- Settles O50: the run comes to its response, and the invariant there gives the buffer its length. -/
theorem pollingRequestEnds : Obligations.PollingRequestEnds := by
  intro s h hi hf hsync
  obtain ⟨n, u, st, hrun, huinv, hb, hcs, hctx, hst⟩ := polling_ends s h hi hf hsync
  have hlen := (huinv.request hb).context.rx_len
  have hop : u.ctx.reqOp = s.ctx.reqOp := by rw [hctx]
  refine ⟨n, u.endPoll st, st, u.ctx.rxBuf, hrun, rfl, rfl, hcs, ?_, ?_, hst⟩
  · rw [hlen, hctx]
  · rw [State.endPoll_trace, List.getLast?_concat, State.out, outOf, hop]

end Sys2Proof.Machine

/-! The round-trip laws of the codec (40_codec.md): a packed word reads back as its bytes in MSB-first mode, the
mirror law carries this over to LSB-first mode, and the groups follow along the words. -/

namespace Sys2Proof.Machine

/-! ### The mirror law (R137) -/

/-- One more byte at the end of an MSB-first word moves the bytes before it up one place. -/
theorem packMsb_concat (l : List Byte) (x : Byte) :
    packMsb (l ++ [x]) = packMsb l <<< 8 + x.setWidth 32 := by
  induction l with
  | nil => simp [packMsb]
  | cons y l ih =>
    simp only [List.cons_append, packMsb, ih, List.length_append, List.length_singleton,
      Nat.mul_add, Nat.mul_one, BitVec.shiftLeft_add, BitVec.shiftLeft_add_distrib, BitVec.add_assoc]

/-- The LSB-first sum from place `j` on is the MSB-first sum of the reversed bytes, moved up `j` places. -/
theorem packLsbFrom_eq (b : List Byte) (j : Nat) : packLsbFrom j b = packMsb b.reverse <<< (8 * j) := by
  induction b generalizing j with
  | nil => simp [packLsbFrom, packMsb]
  | cons x b ih =>
    rw [packLsbFrom, ih, List.reverse_cons, packMsb_concat, BitVec.shiftLeft_add_distrib,
      BitVec.add_comm, ← BitVec.shiftLeft_add, Nat.mul_add, Nat.mul_one, Nat.add_comm (8 * j)]

/-- LSB-first packing is MSB-first packing of the reversed bytes. -/
theorem packWord_mirror (c : Config) (b : List Byte) :
    packWord c b .lsbFirst = packWord c b.reverse .msbFirst := by
  simp only [packWord, List.length_reverse, packLsbFrom_eq b 0, Nat.mul_zero, BitVec.shiftLeft_zero]

/-! ### One word (R136) -/

/-- A byte of an MSB-first word is read back at its place. -/
theorem wordByte_packMsb {b : List Byte} (h : b.length ≤ 4) {j : Nat} (hj : j < b.length) :
    wordByte (packMsb b) b.length j .msbFirst = b[j] := by
  refine BitVec.eq_of_toNat_eq ((toNat_extractLsb'_byte _ _).trans ?_)
  induction b generalizing j with
  | nil => cases hj
  | cons x bs ih =>
    rw [List.length_cons] at h hj
    have hlt := (toNat_packMsb (b := bs) (by omega)).1
    have hplace := byte_mul_place_le x bs.length
    have hword := place_le_word h
    have hval : (packMsb (x :: bs)).toNat = x.toNat * 2 ^ (8 * bs.length) + (packMsb bs).toNat :=
      toNat_byte_shiftLeft_add (by omega)
    rw [hval]
    cases j with
    | zero =>
      rw [List.length_cons, Nat.add_sub_cancel, Nat.sub_zero, Nat.add_comm,
        Nat.add_mul_div_right _ _ (Nat.two_pow_pos _), Nat.div_eq_of_lt hlt, Nat.zero_add]
      exact Nat.mod_eq_of_lt x.isLt
    | succ j =>
      have hsplit : 8 * bs.length = 8 * (bs.length - 1 - j) + 8 + 8 * j := by omega
      rw [show (x :: bs).length - 1 - (j + 1) = bs.length - 1 - j by simp; omega, Nat.add_comm,
        hsplit, Nat.pow_add, Nat.pow_add]
      have hmul : x.toNat * (2 ^ (8 * (bs.length - 1 - j)) * 2 ^ 8 * 2 ^ (8 * j)) =
          256 * (x.toNat * 2 ^ (8 * j)) * 2 ^ (8 * (bs.length - 1 - j)) := by ring
      rw [hmul, Nat.add_mul_div_right _ _ (Nat.two_pow_pos _), Nat.add_mul_mod_self_left]
      exact ih (by omega) (by omega)

/-- The bytes of an MSB-first word, all together. -/
theorem wordBytes_packMsb {b : List Byte} (h : b.length ≤ 4) :
    ((List.range b.length).map fun j => wordByte (packMsb b) b.length j .msbFirst) = b := by
  refine List.ext_getElem (by simp) fun j hj hj' => ?_
  rw [List.getElem_map, List.getElem_range]
  exact wordByte_packMsb h hj'

/-- In LSB-first mode the bytes stand in the opposite order. -/
theorem wordBytes_reverse (w : Word) (k : Nat) :
    ((List.range k).map fun j => wordByte w k j .lsbFirst) =
      ((List.range k).map fun j => wordByte w k j .msbFirst).reverse := by
  refine List.ext_getElem (by simp) fun j hj hj' => ?_
  have hk : j < k := by simpa using hj
  simp only [List.getElem_map, List.getElem_range, List.getElem_reverse, List.length_map,
    List.length_range, wordByte]
  rw [show k - 1 - (k - 1 - j) = j by omega]

/-- A packed word unpacks to its bytes. -/
theorem unpackWord_packWord (c : Config) {b : List Byte} {ord : BitOrder} {w : Word}
    (hw : packWord c b ord = some w) : unpackWord c w b.length ord = some b := by
  have hdomain : ¬ (b.length = 0 ∨ 4 < b.length) := fun hout => by
    rw [(packWord_eq_none_iff c b ord).mpr hout] at hw
    cases hw
  have h1 : 1 ≤ b.length := by omega
  have h4 : b.length ≤ 4 := by omega
  rw [unpackWord_some c h1 h4]
  cases ord with
  | msbFirst =>
    rw [packWord_msbFirst c h1 h4] at hw
    cases hw
    rw [wordBytes_packMsb h4]
  | lsbFirst =>
    have hrev := wordBytes_packMsb (b := b.reverse) (by simpa using h4)
    rw [packWord_mirror, packWord_msbFirst c (by simpa using h1) (by simpa using h4)] at hw
    cases hw
    rw [List.length_reverse] at hrev
    rw [wordBytes_reverse, hrev, List.reverse_reverse]

/-! ### Consecutive words (R133 to R136) -/

/-- Packed groups, and whatever words stand after them, unpack to their bytes. -/
theorem unpackGroups_packGroups (c : Config) (ord : BitOrder) (zs : List Word) {m : Nat} :
    ∀ {b : List Byte} {ws : List Word}, packGroups c ord m b = some ws → b.length ≤ 4 * m →
      4 * m < b.length + 4 → unpackGroups c ord (ws ++ zs) b.length = some b := by
  induction m with
  | zero =>
    intro b ws _ hle _
    obtain rfl : b = [] := List.length_eq_zero_iff.mp (by omega)
    cases ws <;> cases zs <;> rfl
  | succ m ih =>
    intro b ws hws hle hlt
    obtain ⟨w, hw⟩ := packWord_some c (b := b.take 4) (by simp; omega) (by simp) ord
    obtain ⟨vs, hvs, -⟩ := packGroups_some c ord m (b.drop 4) (by simp; omega) (by simp; omega)
    have hcons : ws = w :: vs := by simpa [packGroups, hw, hvs] using hws.symm
    obtain ⟨n, hn⟩ : ∃ n, b.length = n + 1 := ⟨_, (Nat.succ_pred_eq_of_pos (by omega)).symm⟩
    have hhead := unpackWord_packWord c hw
    have htail := ih hvs (by simp; omega) (by simp; omega)
    rw [List.length_take, hn] at hhead
    rw [List.length_drop, hn] at htail
    rw [hcons, hn, List.cons_append, unpackGroups, Config.slotBytes_eq, hhead, htail]
    simp

/-- Packed slots, and whatever words stand after them, unpack to their bytes. -/
theorem unpackSlots_packSlots (c : Config) {b : List Byte} {ord : BitOrder} {ws : List Word}
    (h : b.length ≤ 32) (hws : packSlots c b ord = some ws) (zs : List Word) :
    unpackSlots c (ws ++ zs) b.length ord = some b := by
  have h' : b.length ≤ c.numSlots * c.slotBytes := by simpa using h
  rw [packSlots, if_pos h', Config.slotBytes_eq] at hws
  rw [unpackSlots, if_pos h']
  exact unpackGroups_packGroups c ord zs hws (by rw [ceilDiv_four]; omega)
    (by rw [ceilDiv_four]; omega)

/-- A staged image unpacks to its bytes. -/
theorem unpackSlots_stage (c : Config) {b : List Byte} {ord : BitOrder} {m : Nat} {ws : List Word}
    (h : b.length ≤ 32) (hws : stage c b ord m = some ws) :
    unpackSlots c ws b.length ord = some b := by
  obtain ⟨ps, hps, -⟩ := packSlots_some c h ord
  simp only [stage, hps] at hws
  split at hws
  · cases hws
    exact unpackSlots_packSlots c h hps _
  · cases hws

/-- Settles O10: one word reads back byte by byte, the groups word by word, and LSB-first by the mirror. -/
theorem codecRoundTrips : Obligations.CodecRoundTrips := by
  refine ⟨fun c b ord => ⟨fun h1 h4 => ?_, fun h => ?_, fun m h hm => ?_⟩, packWord_mirror,
    fun c x => packWord_mirror c [x]⟩
  · obtain ⟨w, hw⟩ := packWord_some c h1 h4 ord
    exact ⟨w, hw, unpackWord_packWord c hw⟩
  · obtain ⟨ws, hws, -⟩ := packSlots_some c h ord
    refine ⟨ws, hws, ?_⟩
    have hround := unpackSlots_packSlots c h hws []
    rwa [List.append_nil] at hround
  · obtain ⟨ps, hps, hlen⟩ := packSlots_some c h ord
    have hws := stage_eq (m := m) hps (by rw [hlen]; exact hm)
    exact ⟨_, hws, unpackSlots_stage c h hws⟩

end Sys2Proof.Machine

/-! The chunk plans (42_half_duplex.md, 43_full_duplex.md): each plan cuts its payload into consecutive ranges
of one length, the last one shorter, so payload and receive range are tiled by one law on lists and one on
sums. -/

namespace Sys2Proof.Machine

/-! ### Consecutive ranges -/

/-- Two adjacent ranges of a list are one range. -/
theorem slice_append {α : Type} (l : List α) {i j k : Nat} (hij : i ≤ j) (hjk : j ≤ k) :
    slice l i j ++ slice l j k = slice l i k := by
  have hdrop : l.drop j = (l.drop i).drop (j - i) := by rw [List.drop_drop, Nat.add_sub_cancel' hij]
  rw [slice, slice, slice, hdrop, ← List.take_add, show j - i + (k - j) = k - i by omega]

/-- Ranges from one start that hold as many elements of the list are equal. -/
theorem slice_congr {α : Type} {l : List α} {i j k : Nat}
    (h : min (j - i) (l.length - i) = min (k - i) (l.length - i)) : slice l i j = slice l i k :=
  List.take_eq_take_iff.mpr (by rw [List.length_drop]; exact h)

/-- The first `k` ranges of `n` elements concatenate to the first `n * k` elements. -/
theorem flatMap_slice {α : Type} (l : List α) (n k : Nat) :
    ((List.range k).flatMap fun i => slice l (n * i) (n * (i + 1))) = l.take (n * k) := by
  induction k with
  | zero => simp
  | succ k ih =>
    have hfirst : l.take (n * k) = slice l 0 (n * k) := rfl
    rw [List.range_succ, List.flatMap_append, ih, List.flatMap_singleton, hfirst,
      slice_append l (Nat.zero_le _) (Nat.mul_le_mul_left n (Nat.le_succ k))]
    rfl

/-- The lengths of the first `k` ranges of `n` sum to what they cover. -/
theorem sum_range_min (n m k : Nat) :
    ((List.range k).map fun i => min n (m - n * i)).sum = min (n * k) m := by
  induction k with
  | zero => simp
  | succ k ih =>
    rw [List.range_succ, List.map_append, List.sum_append, ih, List.map_singleton, List.sum_singleton,
      Nat.mul_succ]
    omega

/-- The first `ceil(m/n)` ranges, at least, cover a list of `m` elements. -/
theorem le_mul_ceilDiv {n m k : Nat} (hn : 0 < n) (hk : ceilDiv m n ≤ k) : m ≤ n * k := by
  have hlt := Nat.lt_mul_div_succ (m + n - 1) hn
  rw [Nat.mul_succ] at hlt
  have hle := Nat.mul_le_mul_left n hk
  rw [ceilDiv] at hle
  omega

/-- A staged slot above the packed words is written 0 (R134). -/
theorem slotWord_zero {g : Config} {c : Chunk} {ord : BitOrder} {j : Nat} (h : c.txd.length ≤ 32)
    (hm : ceilDiv c.txd.length 4 ≤ c.stageM) (hpad : ceilDiv c.txd.length 4 ≤ j)
    (hj : j < c.stageM) : slotWord g c ord j = some 0 := by
  obtain ⟨-, ws, -, -, hws, -, -, hzero⟩ := stageIsZeroPadded.1 g c.txd ord c.stageM h hm
  rw [slotWord_of_stage hws, hzero j hpad hj]

/-! ### Half-duplex send (R180 to R183) -/

/-- The send chunk of the range of 28 bytes at place `i`: 4 for the command phase, the rest for the data
phase, with lengths to match. -/
def hdSendRange (c : Config) (tx : List Byte) (i : Nat) : Chunk :=
  hdSendKick c (slice tx (28 * i) (28 * i + 4)) (slice tx (28 * i + 4) (28 * (i + 1)))
    (8 * (slice tx (28 * i) (28 * i + 4)).length)
    (8 * (slice tx (28 * i + 4) (28 * (i + 1))).length)

/-- Each chunk up to the last is that of its range. -/
theorem hdSendChunk_eq (c : Config) (tx : List Byte) {i : Nat} (hi : i ≤ tx.length / 28) :
    hdSendChunk c tx tx.length i = hdSendRange c tx i := by
  simp only [hdSendChunk, hdSendRange, Config.hdSendStride_eq, Config.opcodeMax_eq, Config.hdSendData_eq,
    slice_length, Nat.mul_succ]
  split_ifs with hfull hshort
  · congr 2 <;> omega
  · obtain rfl : i = tx.length / 28 := by omega
    congr 1
    · exact slice_congr (by omega)
    · exact (List.take_eq_nil_of_eq_nil (List.drop_eq_nil_of_le (by omega))).symm
    · omega
    · omega
  · obtain rfl : i = tx.length / 28 := by omega
    congr 1
    · exact slice_congr (by omega)
    · omega
    · omega

/-- Past the last chunk the plan's function repeats it. -/
theorem hdSendChunk_min (c : Config) (tx : List Byte) (n i : Nat) :
    hdSendChunk c tx n i = hdSendChunk c tx n (min i (n / 28)) := by
  rcases Nat.lt_or_ge i (n / 28) with hlt | hge
  · rw [Nat.min_eq_left hlt.le]
  · simp only [hdSendChunk, Config.hdSendStride_eq, if_neg (Nat.not_lt.mpr hge),
      Nat.min_eq_right hge, lt_irrefl, if_false]

theorem hdSendCount_eq (c : Config) (n : Nat) : hdSendCount c n = ceilDiv n 28 := by
  simp only [hdSendCount, Config.hdSendStride_eq, ceilDiv]
  split_ifs <;> omega

theorem le_div_of_lt_hdSendCount {c : Config} {n i : Nat} (h : i < hdSendCount c n) :
    i ≤ n / 28 ∧ 28 * i < n := by
  rw [hdSendCount_eq, ceilDiv] at h
  omega

theorem hdSendRange_op_length_le (c : Config) (tx : List Byte) (i : Nat) :
    (hdSendRange c tx i).op.length ≤ 4 :=
  (slice_length_le ..).trans (by omega)

theorem hdSendRange_txd_length_le (c : Config) (tx : List Byte) (i : Nat) :
    (hdSendRange c tx i).txd.length ≤ 24 :=
  (slice_length_le ..).trans (by omega)

/-- A send chunk stages at most six words, so the slots above them are written 0 (R181). -/
theorem hdSendRange_slot_zero (c : Config) (tx : List Byte) (i : Nat) (ord : BitOrder) {j : Nat}
    (h6 : 6 ≤ j) (h8 : j < 8) : slotWord c (hdSendRange c tx i) ord j = some 0 := by
  have htxd := hdSendRange_txd_length_le c tx i
  have hstage : (hdSendRange c tx i).stageM = 8 := c.numSlots_eq
  have hwords : ceilDiv (hdSendRange c tx i).txd.length 4 ≤ 6 := by
    rw [ceilDiv_four]
    omega
  exact slotWord_zero (by omega) (by omega) (by omega) (by omega)

/-- Settles O12: every kicked chunk is that of its 28-byte range, and the ranges tile the payload. -/
theorem sendPlanCarriesPayload : Obligations.SendPlanCarriesPayload := by
  intro c tx
  refine ⟨hdSendCount_eq c _, ?_, fun i => ?_, fun i hi => ?_⟩
  · have hranges : ∀ i ∈ List.range (hdSendCount c tx.length),
        (hdSendChunk c tx tx.length i).op ++ (hdSendChunk c tx tx.length i).txd =
          slice tx (28 * i) (28 * (i + 1)) := fun i hi => by
      rw [hdSendChunk_eq c tx (le_div_of_lt_hdSendCount (List.mem_range.mp hi)).1]
      exact slice_append tx (by omega) (by omega)
    rw [List.flatMap_congr hranges, flatMap_slice, hdSendCount_eq]
    exact List.take_of_length_le (le_mul_ceilDiv (by decide) le_rfl)
  · rw [hdSendChunk_min, hdSendChunk_eq c tx (min_le_right _ _)]
    exact ⟨hdSendRange_op_length_le .., hdSendRange_txd_length_le .., fun ord =>
      ⟨hdSendRange_slot_zero c tx _ ord le_rfl (by decide),
        hdSendRange_slot_zero c tx _ ord (by decide) (by decide)⟩⟩
  · obtain ⟨hle, hlt⟩ := le_div_of_lt_hdSendCount hi
    rw [hdSendChunk_eq c tx hle]
    refine ⟨rfl, rfl, ?_, c.numSlots_eq, rfl, rfl, rfl⟩
    show 1 ≤ (slice tx (28 * i) (28 * i + 4)).length
    rw [slice_length]
    omega

/-! ### Half-duplex receive (R184 to R186) -/

theorem hdRecvCount_eq (c : Config) (n : Nat) : hdRecvCount c n = ceilDiv n 32 := by
  simp only [hdRecvCount, Config.hdRxChunk_eq, ceilDiv]
  split_ifs <;> omega

/-- Each chunk of the plan receives what is left, at most 32 bytes. -/
theorem hdRecvBytes_eq {c : Config} {n i : Nat} (h : i < hdRecvCount c n) :
    hdRecvBytes c n i = min 32 (n - 32 * i) := by
  rw [hdRecvCount_eq, ceilDiv] at h
  simp only [hdRecvBytes, Config.hdRxChunk_eq]
  split_ifs <;> omega

theorem hdRecvChunk_rxDst (c : Config) (cmd : List Byte) (n dst i : Nat) :
    (hdRecvChunk c cmd n dst i).rxDst = dst + 32 * i := by
  rw [hdRecvChunk, Config.hdRxChunk_eq]

/-- Settles O13: every chunk receives what is left, at most 32 bytes, and these sum to the whole. -/
theorem receivePlanTiles : Obligations.ReceivePlanTiles := by
  intro c cmd n dst
  refine ⟨hdRecvCount_eq c n, ?_, hdRecvChunk_rxDst .., fun i hi => ?_, rfl, fun i hi => ?_,
    fun ord hcmd => ?_, fun i => ⟨rfl, rfl, hdRecvBytes_le c n i, rfl, rfl, rfl, rfl, rfl⟩⟩
  · have hranges : ∀ i ∈ List.range (hdRecvCount c n),
        (hdRecvChunk c cmd n dst i).rxN = min 32 (n - 32 * i) := fun i hi =>
      hdRecvBytes_eq (List.mem_range.mp hi)
    rw [List.map_congr_left hranges, sum_range_min, hdRecvCount_eq]
    exact min_eq_right (le_mul_ceilDiv (by decide) le_rfl)
  · have hbytes : (hdRecvChunk c cmd n dst i).rxN = min 32 (n - 32 * i) :=
      hdRecvBytes_eq (by omega)
    rw [hdRecvCount_eq, ceilDiv] at hi
    rw [hdRecvChunk_rxDst, hdRecvChunk_rxDst, hbytes]
    omega
  · exact if_neg (by omega)
  · rw [hcmd]
    rfl

/-! ### Full duplex (R210 to R217) -/

/-- Each iteration takes what is left of a side, at most 16 bytes. -/
theorem fdBytes_eq (c : Config) (n i : Nat) : fdBytes c n i = min 16 (n - 16 * i) := by
  simp only [fdBytes, Config.fdChunk_eq]
  split_ifs <;> omega

theorem fdCount_eq (c : Config) (tl rl : Nat) :
    fdCount c tl rl = max (ceilDiv tl 16) (ceilDiv rl 16) := by
  rw [fdCount, Config.fdChunk_eq]

theorem fdOpBytes_eq (c : Config) (tl i : Nat) : fdOpBytes c tl i = min 4 (fdBytes c tl i) := by
  rw [fdOpBytes, Config.opcodeMax_eq]

/-- Settles O14: an iteration has bytes exactly while 16 times its index is below a side. -/
theorem fullDuplexSkipsOnlyTheLast : Obligations.FullDuplexSkipsOnlyTheLast := by
  intro c tl rl
  refine ⟨fun i => ?_, ?_⟩
  · rw [fdBytes_eq, fdBytes_eq, fdCount_eq, ceilDiv, ceilDiv]
    omega
  · simp only [fdLoopCount, fdCount_eq, Config.fdChunk_eq, ceilDiv]
    split_ifs <;> omega

/-- The opcode and data bytes of an iteration are its range of the payload. -/
theorem fdChunkAt_bytes (c : Config) (tx : List Byte) (rl i : Nat) :
    (fdChunkAt c tx tx.length rl i).op ++ (fdChunkAt c tx tx.length rl i).txd =
      slice tx (16 * i) (16 * (i + 1)) := by
  have hop := fdOpBytes_eq c tx.length i
  have hbytes := fdBytes_eq c tx.length i
  simp only [fdChunkAt, Config.fdChunk_eq]
  rw [slice_append tx (by omega) (by omega)]
  exact slice_congr (by omega)

theorem fdChunkAt_rxDst (c : Config) (tx : List Byte) (tl rl i : Nat) :
    (fdChunkAt c tx tl rl i).rxDst = 16 * i := by
  rw [fdChunkAt, Config.fdChunk_eq]

theorem fdChunkAt_rxN (c : Config) (tx : List Byte) (tl rl i : Nat) :
    (fdChunkAt c tx tl rl i).rxN = min 16 (rl - 16 * i) := fdBytes_eq c rl i

/-- Settles O15: the 16-byte ranges tile the payload and the receive range alike. -/
theorem fullDuplexPlanCarriesPayload : Obligations.FullDuplexPlanCarriesPayload := by
  intro c tx rl
  have hcount := fdCount_eq c tx.length rl
  refine ⟨?_, ?_, fdChunkAt_rxDst .., fun i hi => ?_⟩
  · simp only [fdChunkAt_bytes, flatMap_slice]
    exact List.take_of_length_le (le_mul_ceilDiv (by decide) (by omega))
  · simp only [fdChunkAt_rxN, sum_range_min]
    exact min_eq_right (le_mul_ceilDiv (by decide) (by omega))
  · rw [fdChunkAt_rxN] at hi
    rw [fdChunkAt_rxDst, fdChunkAt_rxDst, fdChunkAt_rxN]
    omega

/-- An iteration's opcode bytes are those its command phase counts. -/
theorem fdChunkAt_op_length (c : Config) (tx : List Byte) (rl i : Nat) :
    (fdChunkAt c tx tx.length rl i).op.length = fdOpBytes c tx.length i := by
  have hop := fdOpBytes_eq c tx.length i
  have hbytes := fdBytes_eq c tx.length i
  simp only [fdChunkAt, Config.fdChunk_eq, slice_length]
  omega

/-- The data bytes of an iteration are those left after its opcode bytes (R210). -/
theorem fdChunkAt_txd_length (c : Config) (tx : List Byte) (rl i : Nat) :
    (fdChunkAt c tx tx.length rl i).txd.length =
      fdBytes c tx.length i - fdOpBytes c tx.length i := by
  have hop := fdOpBytes_eq c tx.length i
  have hbytes := fdBytes_eq c tx.length i
  simp only [fdChunkAt, Config.fdChunk_eq, slice_length]
  omega

/-- Settles O16: the bounds follow from 16 bytes a side, of which 4 go to the command phase. -/
theorem fullDuplexKickFitsTheBanks : Obligations.FullDuplexKickFitsTheBanks := by
  intro c tx rl i ord
  have hop := fdOpBytes_eq c tx.length i
  have hsend := fdBytes_le c tx.length i
  have hrecv := fdBytes_le c rl i
  have hstage : (fdChunkAt c tx tx.length rl i).stageM = 4 := c.fdSendSlots_eq
  have htxd : (fdChunkAt c tx tx.length rl i).txd.length ≤ 12 := by
    rw [fdChunkAt_txd_length]
    omega
  have hwords : ceilDiv (fdChunkAt c tx tx.length rl i).txd.length 4 ≤ 3 := by
    rw [ceilDiv_four]
    omega
  have hcmd : (fdChunkAt c tx tx.length rl i).cmdBits = 8 * fdOpBytes c tx.length i := rfl
  have hdata : (fdChunkAt c tx tx.length rl i).dataBits =
      8 * (fdBusBytes c tx.length rl i - fdOpBytes c tx.length i) := rfl
  have hreads : readbackCount c (fdChunkAt c tx tx.length rl i) = (fdBytes c rl i + 3) / 4 :=
    readbackCount_eq ..
  rw [fdChunkAt_op_length, hcmd, hdata, hreads, fdBusBytes]
  exact ⟨max_le hsend hrecv, htxd, slotWord_zero (by omega) (by omega) hwords (by omega), hstage,
    by omega, c.fdRxBase_eq, rfl, rfl, by omega, rfl, rfl⟩

end Sys2Proof.Machine

/-! The reference controller's slots (20_memory.md section 5): what a kick stores reads back in order, and
what it clocks out of the staged image. -/

namespace Sys2Proof.Machine

/-! ### Words stored into the slots -/

/-- The stored words replace the slots from `base` on. -/
theorem storeWords_toList {ws : List Word} {data : Vector Word 8} {base : Nat}
    (h : base + ws.length ≤ 8) :
    (storeWords data base ws).toList =
      data.toList.take base ++ ws ++ data.toList.drop (base + ws.length) := by
  induction ws generalizing data base with
  | nil => simp [storeWords]
  | cons w ws ih =>
    rw [List.length_cons] at h
    have hset : (data.setIfInBounds base w).toList =
        (data.toList.take base ++ [w]) ++ data.toList.drop (base + 1) := by
      rw [Vector.toList_setIfInBounds, List.set_eq_take_append_cons_drop, if_pos (by simp; omega),
        List.append_assoc, List.singleton_append]
    have hlen : (data.toList.take base ++ [w]).length = base + 1 := by simp; omega
    rw [storeWords, ih (by omega), hset, List.take_left' hlen, ← List.drop_drop,
      List.drop_left' hlen, List.drop_drop, List.length_cons, Nat.add_assoc, Nat.add_comm 1]
    simp only [List.append_assoc, List.nil_append, List.cons_append]

/-- The other slots keep their words. -/
theorem storeWords_other {ws : List Word} {data : Vector Word 8} {base : Nat} {j : Fin 8}
    (h : j.val < base ∨ base + ws.length ≤ j.val) : (storeWords data base ws)[j] = data[j] := by
  induction ws generalizing data base with
  | nil => rfl
  | cons w ws ih =>
    rw [List.length_cons] at h
    rw [storeWords, ih (by omega)]
    exact Vector.getElem_setIfInBounds_ne _ (by omega)

/-- Packed bytes stored from `base` on read back in order. -/
theorem unpackSlots_storeWords (g : Config) {b : List Byte} (ord : BitOrder) (data : Vector Word 8)
    {base : Nat} (h : base + ceilDiv b.length 4 ≤ 8) :
    unpackSlots g ((storeWords data base ((packSlots g b ord).getD [])).toList.drop base) b.length ord =
        some b ∧
      ∀ j : Fin 8, j.val < base ∨ base + ceilDiv b.length 4 ≤ j.val →
        (storeWords data base ((packSlots g b ord).getD []))[j] = data[j] := by
  have hlen : b.length ≤ 32 := by
    rw [ceilDiv_four] at h
    omega
  obtain ⟨ws, hws, hcount⟩ := packSlots_some g hlen ord
  rw [hws, Option.getD_some]
  rw [← hcount] at h ⊢
  refine ⟨?_, fun j => storeWords_other⟩
  have htake : (data.toList.take base).length = base := by simp; omega
  rw [storeWords_toList h, List.append_assoc, List.drop_left' htake]
  exact unpackSlots_packSlots g hlen hws _

/-- Settles O56: packed words stored in the slots read back in order, and the other slots stay. -/
theorem kickStoresReceivedBytes : Obligations.KickStoresReceivedBytes := by
  intro g k data q
  refine ⟨fun hdir hlen hle => ?_, fun hdir hlen hle => ?_, fun hdir => ?_⟩
  · have hdata : (q.drop k.cmdBytes).length = k.dataBytes := by
      rw [List.length_drop]
      omega
    have hstore : k.storeRx g data q =
        storeWords data 0 ((packSlots g (q.drop k.cmdBytes) k.ord).getD []) := by
      simp only [Kick.storeRx, hdir]
    have hround := unpackSlots_storeWords g (b := q.drop k.cmdBytes) k.ord data (base := 0)
      (by rw [hdata, ceilDiv_four]; omega)
    rw [hdata, ← hstore, List.drop_zero, Nat.zero_add] at hround
    exact ⟨hround.1, fun j hj => hround.2 j (.inr hj)⟩
  · have hstore : k.storeRx g data q = storeWords data 4 ((packSlots g q k.ord).getD []) := by
      simp only [Kick.storeRx, hdir, Config.fdRxBase_eq]
    have hround := unpackSlots_storeWords g (b := q) k.ord data (base := 4)
      (by rw [ceilDiv_four]; omega)
    rw [← hstore] at hround
    exact ⟨hround.1, fun j hj => hround.2 j (.inl hj)⟩
  · simp only [Kick.storeRx, hdir]

/-! ### A word that holds fewer bytes than are clocked (R83, R218) -/

/-- Bytes filled up with zeros to `k`: before them in MSB-first mode, else after them. -/
def padWord (ord : BitOrder) (b : List Byte) (k : Nat) : List Byte :=
  match ord with
  | .msbFirst => List.replicate (k - b.length) 0 ++ b
  | .lsbFirst => b ++ List.replicate (k - b.length) 0

theorem padWord_length (ord : BitOrder) {b : List Byte} {k : Nat} (h : b.length ≤ k) :
    (padWord ord b k).length = k := by
  cases ord <;> simp [padWord] <;> omega

/-- Zero bytes in front add nothing to an MSB-first word. -/
theorem packMsb_zeros (n : Nat) (b : List Byte) : packMsb (List.replicate n 0 ++ b) = packMsb b := by
  induction n with
  | zero => rfl
  | succ n ih =>
    rw [List.replicate_succ, List.cons_append, packMsb, ih]
    simp

/-- The zeros do not change the word. -/
theorem packWord_padWord (c : Config) (ord : BitOrder) {b : List Byte} {k : Nat} (h1 : 1 ≤ b.length)
    (hk : b.length ≤ k) (h4 : k ≤ 4) : packWord c (padWord ord b k) ord = packWord c b ord := by
  have hmsb : ∀ l : List Byte, l.length = b.length →
      packWord c (List.replicate (k - b.length) 0 ++ l) .msbFirst = packWord c l .msbFirst :=
    fun l hl => by
      rw [packWord_msbFirst c (by simp; omega) (by simp; omega),
        packWord_msbFirst c (by omega) (by omega), packMsb_zeros]
  cases ord with
  | msbFirst => exact hmsb b rfl
  | lsbFirst =>
    rw [padWord, packWord_mirror, packWord_mirror, List.reverse_append, List.reverse_replicate]
    exact hmsb b.reverse List.length_reverse

/-- A packed word read as more bytes gives its bytes filled up with zeros. -/
theorem unpackWord_padWord (c : Config) {ord : BitOrder} {b : List Byte} {w : Word} {k : Nat}
    (hw : packWord c b ord = some w) (h1 : 1 ≤ b.length) (hk : b.length ≤ k) (h4 : k ≤ 4) :
    unpackWord c w k ord = some (padWord ord b k) := by
  have hpad := unpackWord_packWord c ((packWord_padWord c ord h1 hk h4).trans hw)
  rwa [padWord_length ord hk] at hpad

/-! ### The data phase of a full-duplex kick -/

/-- A zero word holds zero bytes. -/
theorem unpackWord_zero (c : Config) (ord : BitOrder) {k : Nat} (h1 : 1 ≤ k) (h4 : k ≤ 4) :
    unpackWord c 0 k ord = some (List.replicate k 0) := by
  rw [unpackWord_some c h1 h4]
  refine congrArg some (List.eq_replicate_iff.mpr ⟨by simp, fun b hb => ?_⟩)
  obtain ⟨j, -, rfl⟩ := List.mem_map.mp hb
  cases ord <;> exact BitVec.extractLsb'_zero

/-- Zero words hold zero bytes. -/
theorem unpackGroups_zeros (c : Config) (ord : BitOrder) (zs : List Word) (z : Nat) :
    ∀ d, d ≤ 4 * z → unpackGroups c ord (List.replicate z 0 ++ zs) d = some (List.replicate d 0) := by
  induction z with
  | zero =>
    intro d hd
    obtain rfl : d = 0 := by omega
    cases zs <;> rfl
  | succ z ih =>
    intro d hd
    cases d with
    | zero => rfl
    | succ n =>
      rw [List.replicate_succ, List.cons_append, unpackGroups, Config.slotBytes_eq,
        unpackWord_zero c ord (by omega) (by omega), ih _ (by omega)]
      simp only [List.replicate_append_replicate]
      rw [show min 4 (n + 1) + (n + 1 - 4) = n + 1 by omega]

/-- With less than a word of staged bytes, one word is filled up and the rest is zeros. -/
theorem fdWireData_of_lt (ord : BitOrder) {b : List Byte} {d : Nat} (h4 : b.length < 4)
    (hd : b.length ≤ d) :
    fdWireData ord b d = padWord ord b (min 4 d) ++ List.replicate (d - 4) 0 := by
  have hfull : b.length / 4 = 0 := Nat.div_eq_of_lt h4
  have hmod : b.length % 4 = b.length := Nat.mod_eq_of_lt h4
  cases ord with
  | msbFirst =>
    simp only [fdWireData, padWord, hfull, hmod, Nat.mul_zero, List.take_zero, List.drop_zero,
      List.nil_append, Nat.sub_zero]
    rw [show d - min 4 d = d - 4 by omega]
  | lsbFirst =>
    simp only [fdWireData, padWord, List.append_assoc, List.replicate_append_replicate]
    rw [show min 4 d - b.length + (d - 4) = d - b.length by omega]

/-- A full word of staged bytes is clocked out as it is. -/
theorem fdWireData_of_le (ord : BitOrder) {b : List Byte} {d : Nat} (h4 : 4 ≤ b.length)
    (hd : b.length ≤ d) :
    fdWireData ord b d = b.take 4 ++ fdWireData ord (b.drop 4) (d - 4) := by
  cases ord with
  | msbFirst =>
    have hfull : 4 * (b.length / 4) = 4 + 4 * ((b.length - 4) / 4) := by omega
    have hmod : (b.length - 4) % 4 = b.length % 4 := by omega
    simp only [fdWireData, List.length_drop, hmod, hfull, List.take_add, List.append_assoc,
      List.drop_drop, Nat.sub_sub]
  | lsbFirst =>
    simp only [fdWireData, List.length_drop, ← List.append_assoc, List.take_append_drop]
    rw [show d - 4 - (b.length - 4) = d - b.length by omega]

/-- With no staged bytes the data phase is zeros. -/
theorem fdWireData_nil (ord : BitOrder) (d : Nat) : fdWireData ord [] d = List.replicate d 0 := by
  cases ord with
  | msbFirst =>
    simp only [fdWireData, List.length_nil, Nat.zero_div, Nat.zero_mod, Nat.mul_zero, Nat.sub_zero,
      List.take_nil, List.drop_nil, List.nil_append, List.append_nil,
      List.replicate_append_replicate]
    rw [show min 4 d + (d - min 4 d) = d by omega]
  | lsbFirst => rfl

/-- The data phase is clocked word by word, each word filled up with zeros. -/
theorem fdWireData_step (ord : BitOrder) {b : List Byte} {d : Nat} (hd : b.length ≤ d) :
    fdWireData ord b d =
      padWord ord (b.take 4) (min 4 d) ++ fdWireData ord (b.drop 4) (d - 4) := by
  rcases Nat.lt_or_ge b.length 4 with hlt | hge
  · rw [fdWireData_of_lt ord hlt hd, List.take_of_length_le hlt.le, List.drop_eq_nil_of_le hlt.le,
      fdWireData_nil]
  · have hfour : (b.take 4).length = 4 := by simp; omega
    have hpad : padWord ord (b.take 4) (min 4 d) = b.take 4 := by
      rw [Nat.min_eq_left (hge.trans hd)]
      cases ord <;> simp [padWord, hfour]
    rw [fdWireData_of_le ord hge hd, hpad]

/-- Packed bytes and the zero words after them, read as `d` bytes, are the data bytes of a full-duplex
kick. -/
theorem unpackGroups_padded (c : Config) (ord : BitOrder) (zs : List Word) {m : Nat} :
    ∀ {b : List Byte} {ws : List Word} {d z : Nat}, packGroups c ord m b = some ws →
      b.length ≤ 4 * m → 4 * m < b.length + 4 → b.length ≤ d → d ≤ 4 * (m + z) →
      unpackGroups c ord (ws ++ (List.replicate z 0 ++ zs)) d = some (fdWireData ord b d) := by
  induction m with
  | zero =>
    intro b ws d z hws hle _ _ hd
    obtain rfl : b = [] := List.length_eq_zero_iff.mp (by omega)
    cases hws
    rw [List.nil_append, unpackGroups_zeros c ord zs z d (by omega), fdWireData_nil]
  | succ m ih =>
    intro b ws d z hws hle hlt hbd hd
    obtain ⟨w, hw⟩ := packWord_some c (b := b.take 4) (by simp; omega) (by simp) ord
    obtain ⟨vs, hvs, -⟩ := packGroups_some c ord m (b.drop 4) (by simp; omega) (by simp; omega)
    have hcons : ws = w :: vs := by simpa [packGroups, hw, hvs] using hws.symm
    obtain ⟨n, hn⟩ : ∃ n, d = n + 1 := ⟨_, (Nat.succ_pred_eq_of_pos (by omega)).symm⟩
    have htail := ih (d := d - 4) (z := z) hvs (by simp; omega) (by simp; omega) (by simp; omega)
      (by omega)
    have hhead : unpackWord c w (min 4 d) ord = some (padWord ord (b.take 4) (min 4 d)) :=
      unpackWord_padWord c hw (by simp; omega) (by simp; omega) (by omega)
    rw [hcons, List.cons_append, hn, unpackGroups, Config.slotBytes_eq, ← hn, hhead, htail,
      fdWireData_step ord hbd]

end Sys2Proof.Machine

/-! The wire of the reference controller (20_memory.md section 5): what a chunk's kick clocks out, and the
run from the chunk's programming to the end of its transfer. -/

namespace Sys2Proof.Machine

/-! ### What a kick clocks out (R82 to R85) -/

/-- The command phase of a kick whose opcode word packs `op` is `op`. -/
theorem cmdWire_eq (g : Config) {k : Kick} {op : List Byte} (hcmd : k.cmdBytes = op.length)
    (hop : 0 < op.length → packWord g op k.ord = some k.opcode) : k.cmdWire g = op := by
  rw [Kick.cmdWire, hcmd]
  rcases Nat.eq_zero_or_pos op.length with hzero | hpos
  · rw [hzero, unpackWord_none g _ _ (.inl rfl), List.length_eq_zero_iff.mp hzero]
    rfl
  · rw [unpackWord_packWord g (hop hpos)]
    rfl

/-- The data phase of a transmit kick whose slots are the staged image of `txd` is `txd`. -/
theorem dataWire_tx (g : Config) {k : Kick} {txd : List Byte} (hdir : k.dir = .tx)
    (hle : txd.length ≤ 32) (hdata : k.dataBytes = txd.length)
    (hstage : stage g txd k.ord 8 = some k.slots.toList) : k.dataWire g = txd := by
  simp only [Kick.dataWire, hdir, hdata, unpackSlots_stage g hle hstage, Option.getD_some]

/-- The data phase of a full-duplex kick whose first slots are the staged image of `txd` is `txd` with
the zeros the staging leaves (R83, R218). -/
theorem dataWire_fd (g : Config) {k : Kick} {txd : List Byte} {img zs : List Word}
    (hdir : k.dir = .fd) (hle : txd.length ≤ k.dataBytes) (hmax : k.dataBytes ≤ 16)
    (hstage : stage g txd k.ord 4 = some img) (hslots : k.slots.toList = img ++ zs) :
    k.dataWire g = fdWireData k.ord txd k.dataBytes := by
  obtain ⟨ps, hps, hlen⟩ := packSlots_some g (b := txd) (by omega) k.ord
  rw [ceilDiv_four] at hlen
  have himg := (stage_eq hps (by omega)).symm.trans hstage
  cases himg
  have hdomain : txd.length ≤ g.numSlots * g.slotBytes := by simp; omega
  have hreads : k.dataBytes ≤ g.numSlots * g.slotBytes := by simp; omega
  have hgroups := hps
  rw [packSlots, if_pos hdomain, Config.slotBytes_eq, ceilDiv_four, ← hlen] at hgroups
  have hdata := unpackGroups_padded g k.ord zs (d := k.dataBytes) (z := 4 - ps.length) hgroups
    (by omega) (by omega) hle (by omega)
  simp only [Kick.dataWire, hdir, hslots, unpackSlots, if_pos hreads, List.append_assoc, hdata,
    Option.getD_some]

/-! ### The chunks of a request, as the controller sees them -/

/-- What a chunk of a plan gives the controller for its data phase, in each direction. -/
inductive DataPhase (c : Chunk) : Prop where
  | tx (dir : c.dir = .tx) (bits : c.dataBits = 8 * c.txd.length) (stage : c.stageM = 8)
  | rx (dir : c.dir = .rx) (bits : c.dataBits = 8 * c.rxN)
  | fd (dir : c.dir = .fd) (bits : ∃ d, c.dataBits = 8 * d ∧ c.txd.length ≤ d ∧ d ≤ 16)
      (stage : c.stageM = 4)

/-- The lengths of a chunk are those of its bytes. -/
structure ChunkPhases (c : Chunk) : Prop where
  cmd : c.cmdBits = 8 * c.op.length
  data : DataPhase c

theorem hdSendChunk_phases (g : Config) (tx : List Byte) {i : Nat} (hi : i < hdSendCount g tx.length) :
    ChunkPhases (hdSendChunk g tx tx.length i) := by
  rw [hdSendChunk_eq g tx (le_div_of_lt_hdSendCount hi).1]
  exact ⟨rfl, .tx rfl rfl g.numSlots_eq⟩

theorem hdRecvChunk_phases (g : Config) (cmd : List Byte) (n dst i : Nat) :
    ChunkPhases (hdRecvChunk g cmd n dst i) :=
  ⟨rfl, .rx rfl rfl⟩

theorem fdChunkAt_phases (g : Config) (tx : List Byte) (rl i : Nat) :
    ChunkPhases (fdChunkAt g tx tx.length rl i) := by
  have hop := fdChunkAt_op_length g tx rl i
  have htxd := fdChunkAt_txd_length g tx rl i
  have hsend := fdBytes_le g tx.length i
  have hrecv := fdBytes_le g rl i
  refine ⟨by rw [hop]; rfl, .fd rfl ⟨_, rfl, ?_, ?_⟩ g.fdSendSlots_eq⟩
  · rw [htxd, fdBusBytes]
    omega
  · rw [fdBusBytes]
    omega

/-- Every chunk of a running request has the lengths of its bytes. -/
theorem chunk_phases {s : State} (h : s.Inv) (hp : s.pos = .wOpcode) (hb : s.busy = true) :
    ChunkPhases s.chunk := by
  have hrequest := h.request hb
  have hcontext := hrequest.context
  have hcounters := hrequest.counters
  rw [hp] at hcounters
  have hlt := hcounters.1
  have hconditions := hcontext.conditions
  rw [hrequest.total, ← hcontext.tx_len] at hlt
  rw [State.chunk, chunkOf, ← hcontext.tx_len]
  unfold requestConditions at hconditions
  unfold planCount at hlt
  cases hop : s.ctx.reqOp <;> rw [hop] at hconditions hlt
  case send | sendAsync => exact hdSendChunk_phases _ _ hlt
  case receive | sendRecv | sendRecvAsync => exact hdRecvChunk_phases ..
  case sendRecvFd => exact fdChunkAt_phases ..
  case configure | registerCallback => cases hconditions

/-- The kick START takes when a chunk is programmed with the opcode word `w` over the staged image `img`
(R66, R72). -/
def Chunk.kick (c : Chunk) (ord : BitOrder) (w : Word) (data : Vector Word 8) (img : List Word) : Kick where
  ord := ord
  cmdBytes := c.cmdBits / 8
  dataBytes := c.dataBits / 8
  dir := c.dir
  opcode := w
  slots := storeWords data 0 img

/-- A programmed chunk puts its bytes on the wire. -/
theorem Chunk.kick_wire {g : Config} {c : Chunk} {ord : BitOrder} {w : Word} {img : List Word}
    (h : ChunkPhases c) (hdomain : ChunkInDomain g c) (hw : opcodeWord g c ord = some w)
    (himg : stage g c.txd ord c.stageM = some img) (hlen : img.length = c.stageM)
    (data : Vector Word 8) :
    (c.kick ord w data img).cmdWire g ++ (c.kick ord w data img).dataWire g = wireBytes g ord c := by
  have hstage := hdomain.stage_le
  have htxd := hdomain.txd_le
  have hslots : (c.kick ord w data img).slots.toList = img ++ data.toList.drop img.length := by
    simp only [Chunk.kick, storeWords_toList (base := 0) (data := data) (ws := img) (by omega),
      List.take_zero, List.nil_append, Nat.zero_add]
  have hcmd : (c.kick ord w data img).cmdWire g = c.op := by
    refine cmdWire_eq g ?_ fun hpos => ?_
    · rw [Chunk.kick, h.cmd, Nat.mul_div_cancel_left _ (by decide)]
    · rw [opcodeWord, if_pos hpos] at hw
      exact hw
  rw [hcmd, wireBytes]
  congr 1
  rcases h.data with ⟨hdir, hbits, hm⟩ | ⟨hdir, hbits⟩ | ⟨hdir, ⟨d, hbits, hle, hmax⟩, hm⟩
  · rw [hm] at himg hlen
    rw [List.drop_eq_nil_of_le (by simp; omega), List.append_nil] at hslots
    rw [dataWire_tx g (k := c.kick ord w data img) (txd := c.txd) hdir (by omega)
      (by rw [Chunk.kick, hbits, Nat.mul_div_cancel_left _ (by decide)])
      (himg.trans (congrArg some hslots.symm)), hdir]
  · rw [hdir]
    simp only [Kick.dataWire, Chunk.kick, hdir, hbits]
    rw [Nat.mul_div_cancel_left _ (by decide)]
  · have hd : (c.kick ord w data img).dataBytes = d := by
      rw [Chunk.kick, hbits, Nat.mul_div_cancel_left _ (by decide)]
    rw [hm] at himg
    rw [dataWire_fd g (k := c.kick ord w data img) hdir (by omega) (by omega) himg hslots, hd, hdir,
      hbits, Nat.mul_div_cancel_left _ (by decide)]
    rfl

/-! ### The controller during `program` (R156) -/

/-- A run of writes from `s` to `t` that takes the reference controller from `c` to `c'`. -/
structure RefRun (n : Nat) (s t : State) (c c' : RefController) : Prop where
  steps : runSteps n s = .next t
  frame : BusFrame s t
  before : s.controller = .reference c
  after : t.controller = .reference c'

theorem RefRun.trans {n m : Nat} {s t u : State} {c c' c'' : RefController}
    (h : RefRun n s t c c') (g : RefRun m t u c' c'') : RefRun (n + m) s u c c'' :=
  ⟨(runSteps_add m h.steps).trans g.steps, h.frame.trans g.frame, h.before, g.after⟩

theorem RefRun.single {s t : State} {c c' : RefController} (hi : s.inputs = [])
    (hf : s.fsm = .run ∨ s.fsm = .isr) (hc : s.controller = .reference c)
    (hstep : procStep s = .next t) (hframe : BusFrame s t) (hc' : t.controller = .reference c') :
    RefRun 1 s t c c' :=
  ⟨runSteps_one ((step_of_running hi hf).trans hstep), hframe, hc, hc'⟩

theorem busWrite_reference {s : State} {c : RefController} (h : s.controller = .reference c) (r : Reg)
    (v : Word) : (s.busWrite r v).controller = .reference (c.write r v) := by
  simp only [State.busWrite, h]

theorem busWriteLength_reference {s : State} {c : RefController} (h : s.controller = .reference c)
    (cmd data : Nat) (dir : Dir) :
    (s.busWriteLength cmd data dir).controller = .reference (c.setLength cmd data dir) := by
  simp only [State.busWriteLength, h]

theorem busSet_reference {s : State} {c : RefController} (h : s.controller = .reference c) (r : Reg)
    (m : Word) :
    (s.busSet r m).controller = .reference (c.setBits s.config s.ctx.ord r m) := by
  simp only [State.busSet, h]

/-- A write of a data register stores one word. -/
theorem write_data (c : RefController) {j : Nat} (hj : j < 8) (w : Word) :
    c.write (.data (Fin.ofNat 8 j)) w = { c with data := c.data.setIfInBounds j w } := by
  have hval : (Fin.ofNat 8 j).val = j := Nat.mod_eq_of_lt hj
  rw [RefController.write]
  congr 1
  refine Vector.ext fun i hi => ?_
  rw [Vector.getElem_set, Vector.getElem_setIfInBounds, hval]

/-- The send slots are written from slot `j` on. -/
theorem slotWrites_refRun {img : List Word} (ws : List Word) {s : State} {j : Nat} {c : RefController}
    (hi : s.inputs = []) (hf : s.fsm = .run ∨ s.fsm = .isr) (hc : s.controller = .reference c)
    (hp : s.pos = slotPos s.chunk j) (hle : s.chunk.stageM ≤ 8)
    (himg : stage s.config s.chunk.txd s.ctx.ord s.chunk.stageM = some img)
    (hlen : img.length = s.chunk.stageM) (hws : img.drop j = ws) :
    ∃ t, RefRun ws.length s t c { c with data := storeWords c.data j ws } ∧ t.pos = .wMblen := by
  induction ws generalizing s j c with
  | nil =>
    have hend : ¬ j < s.chunk.stageM := by
      have := List.drop_eq_nil_iff.mp hws
      omega
    exact ⟨s, ⟨rfl, .refl s, hc, hc⟩, hp.trans (if_neg hend)⟩
  | cons w ws ih =>
    have hget : img[j]? = some w := by rw [← List.head?_drop, hws]; rfl
    have hj : j < s.chunk.stageM := hlen ▸ (List.getElem?_eq_some_iff.mp hget).1
    have hwrite : (s.busWrite (.data (Fin.ofNat 8 j)) w).controller =
        .reference { c with data := c.data.setIfInBounds j w } := by
      rw [busWrite_reference hc, write_data c (by omega)]
    have hone := RefRun.single hi hf hc ((procStep_wData (hp.trans (if_pos hj))).trans
      (stepData_next (by omega) ((slotWord_of_stage himg j).trans hget))) (busWrite_frame ..) hwrite
    obtain ⟨t, hrun, hpos⟩ := ih (s := { s.busWrite (.data (Fin.ofNat 8 j)) w with
      pos := slotPos s.chunk (j + 1) }) hi hf hwrite rfl hle himg hlen
      (by rw [← List.drop_drop, hws]; rfl)
    refine ⟨t, ?_, hpos⟩
    rw [List.length_cons, Nat.add_comm]
    exact hone.trans hrun

/-- The reference controller after `program` wrote a chunk's opcode word, slots and lengths, set its mode
bits and started the kick. -/
def RefController.programmed (c : RefController) (g : Config) (ord : BitOrder) (k : Chunk) (w : Word)
    (img : List Word) : RefController :=
  (({ c.write .opcode w with data := storeWords c.data 0 img }.setLength k.cmdBits k.dataBits
    k.dir).setBits g ord .ctrl k.ctrlMask).setBits g ord .ctrl g.start

/-- The kick takes the registers as they were programmed, and the wire is as it was. -/
theorem programmed_kick {g : Config} {k : Chunk} (hmask : k.ctrlMask &&& g.start = 0)
    (c : RefController) (ord : BitOrder) (w : Word) (img : List Word) :
    (c.programmed g ord k w img).kick = some (k.kick ord w c.data img) ∧
      (c.programmed g ord k w img).wire = c.wire := by
  rw [RefController.programmed, setBits_of_no_start hmask, setBits_start]
  exact ⟨rfl, rfl⟩

/-- `program` of a chunk takes the controller to its kick, on every path. -/
theorem program_refRun {s : State} {c : RefController} {w : Word} {img : List Word}
    (hi : s.inputs = []) (hf : s.fsm = .run ∨ s.fsm = .isr) (hc : s.controller = .reference c)
    (hp : s.pos = .wOpcode) (hdomain : ChunkInDomain s.config s.chunk)
    (hw : opcodeWord s.config s.chunk s.ctx.ord = some w)
    (himg : stage s.config s.chunk.txd s.ctx.ord s.chunk.stageM = some img)
    (hlen : img.length = s.chunk.stageM) :
    ∃ t, runSteps (4 + s.chunk.stageM) s = .next t ∧ t.inputs = [] ∧ t.config = s.config ∧
      t.controller = .reference (c.programmed s.config s.ctx.ord s.chunk w img) := by
  have hopcode := RefRun.single hi hf hc ((procStep_wOpcode hp).trans (stepOpcode_of_some hw))
    (busWrite_frame ..) (busWrite_reference hc .opcode w)
  obtain ⟨t, hslots, hpos⟩ := slotWrites_refRun img (hopcode.frame.no_input hi)
    (hopcode.frame.running hf) hopcode.after rfl hdomain.stage_le himg hlen rfl
  have htoMblen := hopcode.trans hslots
  have hframe := htoMblen.frame
  have hmblen := RefRun.single (hframe.no_input hi) (hframe.running hf) htoMblen.after
    (procStep_wMblen hpos) (stepMblen_frame t) (busWriteLength_reference htoMblen.after _ _ _)
  have htoMode := htoMblen.trans hmblen
  have hmode := RefRun.single (htoMode.frame.no_input hi) (htoMode.frame.running hf) htoMode.after
    (procStep_sMode rfl) (stepMode_frame _) (busSet_reference htoMode.after .ctrl _)
  have hrun := htoMode.trans hmode
  have hkick : step (stepMode (stepMblen t)) = .next (stepStart (stepMode (stepMblen t))) :=
    (step_of_running (hrun.frame.no_input hi) (hrun.frame.running hf)).trans (procStep_sStart rfl)
  have hmove := stepStart_move (stepMode (stepMblen t))
  refine ⟨_, ?_, hmove.inputs.trans (hrun.frame.no_input hi), hmove.config.trans hrun.frame.config, ?_⟩
  · rw [show 4 + s.chunk.stageM = 1 + img.length + 1 + 1 + 1 by omega]
    exact (runSteps_add 1 hrun.steps).trans (runSteps_one hkick)
  · rw [hmove.controller, busSet_reference hrun.after, RefController.programmed]
    simp only [htoMode.frame.config, htoMode.frame.ctx, htoMode.frame.chunk, hrun.frame.config,
      hrun.frame.ctx, hframe.chunk]
    rfl

/-- Only a running procedure stands at the opcode write. -/
theorem State.Inv.running_of_wOpcode {s : State} (h : s.Inv) (hp : s.pos = .wOpcode) :
    s.fsm = .run ∨ s.fsm = .isr := by
  have hfits := h.fits
  rw [hp] at hfits
  cases hf : s.fsm with
  | run => exact .inl rfl
  | isr => exact .inr rfl
  | idle => simp [hf, posFits] at hfits
  | waitIrq => simp [hf, posFits] at hfits

/-- Settles O55: `program` leaves the kick in the controller, and its end clocks out what the kick holds. -/
theorem sendKickWireOrder : Obligations.SendKickWireOrder := by
  refine ⟨fun g k op txd hdir hop htxd hcmd hdata hw hstage => ?_, fun s c hinv hi hc hp => ?_⟩
  · rw [cmdWire_eq g hcmd hw, dataWire_tx g hdir htxd hdata hstage]
  · have hf := hinv.running_of_wOpcode hp
    have hb : s.busy = true := busy_of_not_idle hinv (by rcases hf with hf | hf <;> rw [hf] <;> decide)
    have hdomain := chunk_inDomain hinv hb
    obtain ⟨w, hw⟩ := opcodeWord_some s.config hdomain.op_le s.ctx.ord
    obtain ⟨img, himg, hlen⟩ := stage_some s.config hdomain.txd_le hdomain.stage_le s.ctx.ord
    obtain ⟨t, hsteps, hti, htg, htc⟩ := program_refRun hi hf hc hp hdomain hw himg hlen
    obtain ⟨hkick, hwire⟩ := programmed_kick (ctrlMask_and_start s) c s.ctx.ord w img
    have hend := step_of_transferEnd (s := { t with inputs := [.transferEnd] }) rfl
    rw [transferEnd_kick (s := { t with inputs := [] }) htc hkick] at hend
    refine ⟨t, _, _, hsteps, hend, rfl, rfl, ?_⟩
    have hbytes := Chunk.kick_wire (chunk_phases hinv hp hb) hdomain hw himg hlen c.data
    rw [RefController.endKick, hwire, Kick.bits, htg, hbytes]
    rfl

end Sys2Proof.Machine
